-- ==== Sys2Proof/Word.lean ====
section
/-! DEFINITION. The words of the core: bytes, the six lines of a port, and the 64-bit stimulus word
(30_encoding.md R47). Counters and indexes are exact unsigned integers (00_scope.md R8, R10) and are held as `Nat`;
their widths are part of the invariant of Safety.lean. -/

namespace Sys2Proof

/-- One element of the storage spaces RAW, ACC and REPORT (20_memory.md R37), and every 8-bit field or code. -/
abbrev Byte := BitVec 8

/-- The levels of the six input lines of one multiplexed port, bit k = line k, 0 = low (10_state.md R32). -/
abbrev Lines := BitVec 6

/-- The stimulus word that a step takes (30_encoding.md R47). -/
abbrev StimWord := BitVec 64

end Sys2Proof
end

