-- ==== Sys2Proof/Syntax.lean ====
section
/-! DEFINITION. The operations of the core, one constructor for each row of the opcode table; the core runs no
program, and its operations play the part of instructions (00_scope.md R1, 30_encoding.md R49, R52). -/

namespace Sys2Proof

/-- The fields of a stimulus word other than RST and the reserved bits (30_encoding.md R47). -/
structure Stim where
  /-- `LINES0`: the input lines of multiplexed port 0. -/
  lines0 : Lines
  /-- `LINES1`: the input lines of multiplexed port 1. -/
  lines1 : Lines
  /-- `DAT`: serial data-in. -/
  dat : Bool
  /-- `EPRDY`: USB interrupt endpoint ready. -/
  epRdy : Bool
  /-- `HOLD`: the serial bit clock is stalled. -/
  hold : Bool
  /-- `REQV`: a class request is present. -/
  reqv : Bool
  /-- `RQT`: `bmRequestType`. -/
  rqt : Byte
  /-- `RQ`: `bRequest`. -/
  rq : Byte
  /-- `WVAL`: `wValue`. -/
  wval : BitVec 16
  deriving DecidableEq, Repr

/-- A host class request as sub-step S1 dispatches it (30_encoding.md R49). -/
inductive Request where
  | getReport
  | getIdle
  | setIdle (rate : Byte)
  | unhandled (rqt rq : Byte)
  deriving DecidableEq, Repr

/-- The operations, in the order of the opcode table. The operands are those that the encoding carries: the fields of
the word for STEP, `WVAL[15:8]` for SET_IDLE (R48), the request pair for REQ_UNHANDLED. What an operation reads of the
current step's inputs (the lines, DAT) it reads from `State.pins`. -/
inductive Instr where
  /-- STEP, R58: one timebase step with these inputs. -/
  | step (stim : Stim)
  /-- RESET, R59. -/
  | reset
  /-- GET_REPORT, R108. -/
  | getReport
  /-- GET_IDLE, R109. -/
  | getIdle
  /-- SET_IDLE, R110; `rate` is `WVAL[15:8]`. -/
  | setIdle (rate : Byte)
  /-- REQ_UNHANDLED, R111; the request pair that no row honours. -/
  | reqUnhandled (rqt rq : Byte)
  /-- IDLE_TICK, R106. -/
  | idleTick
  /-- WDOG_EXPIRE, R86. -/
  | wdogExpire
  /-- SER_GAP, R78. -/
  | serGap
  /-- SER_START, R79. -/
  | serStart
  /-- SER_EDGE, R80 to R84. -/
  | serEdge
  /-- SER_COMPLETE, R85. -/
  | serComplete
  /-- POLL_ADVANCE, R69. -/
  | pollAdvance
  /-- POLL_FINISH, R70. -/
  | pollFinish
  /-- POLL_RESTART, R71. -/
  | pollRestart
  /-- SAMPLE_LATCH, R72. -/
  | sampleLatch
  /-- ARBITRATE, R90 to R95. -/
  | arbitrate
  /-- BUILD_MUX, R101. -/
  | buildMux
  /-- BUILD_SER, R102. -/
  | buildSer
  /-- TRANSMIT, R107. -/
  | transmit
  deriving DecidableEq, Repr

/-- The two encodings of the opcode table: a 64-bit stimulus word (format STIM, R47) or an 8-bit event code (format
EVT, R52). -/
inductive Code where
  | stim (w : StimWord)
  | event (c : Byte)
  deriving DecidableEq, Repr

/-- Why the decoder reads no operation from an encoding. Only event codes can be rejected: every stimulus word has a
meaning (R49, R58). -/
inductive Reject where
  /-- A code that R52 does not list. -/
  | unusedEventCode (c : Byte)
  /-- The code of an operation that a stimulus word selects (0xF0, 0x40, 0x41, 0x42, 0x4F): its encoding is the word,
  which carries its operands (log 18). -/
  | codeOfStimulusOperation (c : Byte)
  deriving DecidableEq, Repr

end Sys2Proof
end

