-- ==== Sys2Proof/WellFormed.lean ====
section
/-! DEFINITION. Which terms of `Instr` stand for an encoding. Widths hold by type; the one check left is that
REQ_UNHANDLED carries no pair that an earlier row of the request map honours (30_encoding.md R49). -/

namespace Sys2Proof

/-- The three request pairs that R49 honours: GET_REPORT, GET_IDLE, SET_IDLE. -/
def honouredPair (rqt rq : Byte) : Bool :=
  (rqt == 0xA1 && rq == 0x01) || (rqt == 0xA1 && rq == 0x02) || (rqt == 0x21 && rq == 0x0A)

def Instr.wellFormed : Instr → Bool
  | .reqUnhandled rqt rq => !honouredPair rqt rq
  | .step _ | .reset | .getReport | .getIdle | .setIdle _ | .idleTick | .wdogExpire | .serGap | .serStart | .serEdge
  | .serComplete | .pollAdvance | .pollFinish | .pollRestart | .sampleLatch | .arbitrate | .buildMux | .buildSer
  | .transmit => true

end Sys2Proof
end

