-- ==== Sys2Proof/Decode.lean ====
section
/-! DEFINITION. The decoder, total on every encoding, and after it the encoder written from the same tables
(30_encoding.md R47, R49, R52). A stimulus word is decoded in two stages, as the spec decodes it: RST selects RESET or
STEP (R58, R59), and inside STEP the request map selects the operation of sub-step S1 (R49). -/

namespace Sys2Proof

/-! ## The stimulus word -/

/-- The fields of R47. The reserved bits [23:17] and [63:56] are read by nothing (R50). -/
def decodeStim (w : StimWord) : Stim where
  lines0 := w.extractLsb' 0 6
  lines1 := w.extractLsb' 6 6
  dat := w.getLsbD 12
  epRdy := w.getLsbD 13
  hold := w.getLsbD 14
  reqv := w.getLsbD 16
  rqt := w.extractLsb' 24 8
  rq := w.extractLsb' 32 8
  wval := w.extractLsb' 40 16

/-- RST, bit 15 (R47). -/
def rstBit (w : StimWord) : Bool := w.getLsbD 15

/-- The operation a step runs: RESET when RST = 1, every other field then being ignored (R51, R59), else STEP with
the word's fields (R58). This is the decoder that the machine's step uses. -/
def decodeTop (w : StimWord) : Instr :=
  if rstBit w then .reset else .step (decodeStim w)

/-- The SET_IDLE operand `WVAL[15:8]`, the value's high byte (R48). -/
def idleOperand (wval : BitVec 16) : Byte := wval.extractLsb' 8 8

/-- The request map of R49: exact match of the pair, first row first, the last row matching every request. -/
def decodeRequest (rqt rq : Byte) (wval : BitVec 16) : Request :=
  if rqt = 0xA1 ∧ rq = 0x01 then .getReport
  else if rqt = 0xA1 ∧ rq = 0x02 then .getIdle
  else if rqt = 0x21 ∧ rq = 0x0A then .setIdle (idleOperand wval)
  else .unhandled rqt rq

/-- The request of these inputs. Meaningful when REQV = 1 (R51). -/
def Stim.request (st : Stim) : Request := decodeRequest st.rqt st.rq st.wval

/-- The row of the opcode table that a request runs. -/
def Request.toInstr : Request → Instr
  | .getReport => .getReport
  | .getIdle => .getIdle
  | .setIdle rate => .setIdle rate
  | .unhandled rqt rq => .reqUnhandled rqt rq

/-- The most specific row of the opcode table that a word matches: RESET; a request row when REQV = 1 (the word then
matches the STEP row too, and the operation runs inside that STEP; log 14); else STEP. -/
def decodeStimOperation (w : StimWord) : Instr :=
  if rstBit w then .reset
  else if (decodeStim w).reqv then (decodeStim w).request.toInstr
  else .step (decodeStim w)

/-! ## The event codes -/

/-- The rows of R52 in format EVT. -/
def eventRows : List (Byte × Instr) :=
  [(0x20, .idleTick), (0x14, .wdogExpire), (0x10, .serGap), (0x11, .serStart), (0x12, .serEdge),
   (0x13, .serComplete), (0x01, .pollAdvance), (0x02, .pollFinish), (0x03, .pollRestart), (0x04, .sampleLatch),
   (0x30, .arbitrate), (0x31, .buildMux), (0x32, .buildSer), (0x33, .transmit)]

/-- The codes that R52 gives the operations in format STIM. -/
def stimulusEventCodes : List Byte := [0xF0, 0x40, 0x41, 0x42, 0x4F]

def decodeEvent (c : Byte) : Except Reject Instr :=
  match eventRows.lookup c with
  | some i => .ok i
  | none => .error (if c ∈ stimulusEventCodes then .codeOfStimulusOperation c else .unusedEventCode c)

/-- The decoder of both formats. -/
def decode : Code → Except Reject Instr
  | .stim w => .ok (decodeStimOperation w)
  | .event c => decodeEvent c

/-! ## The encoder -/

/-- The word of these inputs with RST = 0 and the reserved bits 0 (R47, R50). -/
def encodeStim (st : Stim) : StimWord :=
  0#8 ++ st.wval ++ st.rq ++ st.rqt ++ 0#7 ++ BitVec.ofBool st.reqv ++ 0#1 ++ BitVec.ofBool st.hold ++
    BitVec.ofBool st.epRdy ++ BitVec.ofBool st.dat ++ st.lines1 ++ st.lines0

/-- The inputs that carry a request and nothing else: the match value of its row of R49. -/
def requestStim (rqt rq : Byte) (rate : Byte) : Stim :=
  { lines0 := 0, lines1 := 0, dat := false, epRdy := false, hold := false, reqv := true, rqt := rqt, rq := rq,
    wval := rate ++ 0#8 }

/-- The encoding of an operation: the fields it carries, every ignored bit 0. -/
def encode : Instr → Code
  | .step st => .stim (encodeStim st)
  | .reset => .stim 0x0000000000008000
  | .getReport => .stim (encodeStim (requestStim 0xA1 0x01 0))
  | .getIdle => .stim (encodeStim (requestStim 0xA1 0x02 0))
  | .setIdle rate => .stim (encodeStim (requestStim 0x21 0x0A rate))
  | .reqUnhandled rqt rq => .stim (encodeStim (requestStim rqt rq 0))
  | .idleTick => .event 0x20
  | .wdogExpire => .event 0x14
  | .serGap => .event 0x10
  | .serStart => .event 0x11
  | .serEdge => .event 0x12
  | .serComplete => .event 0x13
  | .pollAdvance => .event 0x01
  | .pollFinish => .event 0x02
  | .pollRestart => .event 0x03
  | .sampleLatch => .event 0x04
  | .arbitrate => .event 0x30
  | .buildMux => .event 0x31
  | .buildSer => .event 0x32
  | .transmit => .event 0x33

/-! ## The host's questions -/

/-- The encoding that the opcode table's bits give: 8 bits are an event code; anything longer is a stimulus word, the
bits above being 0. No encoding is longer than 64 bits (R56). -/
def tableCode (nbits w : Nat) : Option Code :=
  if nbits ≤ 8 then some (.event (BitVec.ofNat 8 w))
  else if nbits ≤ 64 then some (.stim (BitVec.ofNat 64 w))
  else none

/-- The instruction the decoder reads from the bits of a row of the opcode table. -/
def decodeTableWord (nbits w : Nat) : Option Instr :=
  match tableCode nbits w with
  | none => none
  | some c =>
    match decode c with
    | .ok i => some i
    | .error _ => none

end Sys2Proof
end

