-- ==== Sys2Proof/Config.lean ====
section
/-! DEFINITION. What an implementation fixes (the parameter record of 00_scope.md R4) and the free values: constants
without a body, so that no proof can lean on what they are. The default record, its legality (R5) and the fixed
command pattern stand in Machine/Params.lean. -/

namespace Sys2Proof

/-- `SERIAL_PERM` (00_scope.md R4): for each report byte the accumulator slot it copies, and whether the copy is
inverted. -/
structure SerialPerm where
  src : Vector (Fin 6) 6
  inv : Vector Bool 6
  deriving DecidableEq, Repr

/-- The parameter record `Params` of 00_scope.md R4. Every time is a number of timebase steps or of serial ticks, as
the rule says. A record is used only when it is legal (R5). -/
structure Params where
  /-- `TB_HZ`: steps per second. No rule reads it (40_timing_service.md R67; log 22). -/
  tbHz : Nat
  /-- `T_POLL`: steps between poll ticks inside a packet. -/
  tPoll : Nat
  /-- `T_GAP`: steps from the packet-end tick to the next packet-start tick. -/
  tGap : Nat
  /-- `T_SETTLE`: steps from a select toggle (or packet start) to the sample latch. -/
  tSettle : Nat
  /-- `SEL_IDLE`: idle level of the select lines. -/
  selIdle : Bool
  /-- `T_HALF`: steps per serial tick, half a bit period. -/
  tHalf : Nat
  /-- `E_BYTE`: serial ticks per exchanged byte. -/
  eByte : Nat
  /-- `TXN_GAP`: serial ticks with attention released between transactions. -/
  txnGap : Nat
  /-- `T_WD`: steps from the start of a transaction to the watchdog's expiry. -/
  tWd : Nat
  /-- `T_IDLE`: steps per idle tick. -/
  tIdle : Nat
  /-- `IDLE_DEFAULT`: the idle rate after reset. -/
  idleDefault : Byte
  /-- `CHORD_MASK`: the button bits of port 1 that form the chord. -/
  chordMask : Byte
  /-- `SERIAL_MARKER`: the raw byte of port 0 that selects serial mode. OPEN in the spec (D13). -/
  serialMarker : Byte
  /-- `SERIAL_PERM`. -/
  serialPerm : SerialPerm
  deriving DecidableEq, Repr

/-- FREE VALUE (log 4): the word that the environment gives when no word stands in `State.inputs`. Every input is
chosen by the environment, freely and anew at every step (10_state.md R36). -/
opaque Config.freeStim : Nat → StimWord

/-- FREE VALUE (log 8): byte i of `tx_data` in a step with `tx_valid = 0` (93_implementation_defined.md U7). -/
opaque Config.freeTxByte : Nat → Nat → Byte

/-- FREE VALUE (log 8): byte i of `resp_data` where the response carries no such byte
(93_implementation_defined.md U8). -/
opaque Config.freeRespByte : Nat → Nat → Byte

end Sys2Proof
end

