-- ==== Sys2Proof/Machine/Params.lean ====
section
/-! DEFINITION. The default parameter record (00_scope.md R4), which records are legal (R5), and the command pattern
that the source fixes (30_encoding.md R57). -/

namespace Sys2Proof

/-- The default of `SERIAL_PERM` (44_report_formatter.md R102): report bytes 0 to 5 copy slots 4, 5, 2, 3, 0, 1, and
the two button bytes are inverted. -/
def SerialPerm.default : SerialPerm where
  src := #v[4, 5, 2, 3, 0, 1]
  inv := #v[false, false, false, false, true, true]

/-- The default column of 00_scope.md R4. `SERIAL_MARKER` has no default there: it is OPEN, and 0xC0 is the value the
test vectors take. DESIGN CHOICE (log 2), unsafe: no statement rests on it. -/
def Params.default : Params where
  tbHz := 1000000
  tPoll := 500
  tGap := 2000
  tSettle := 20
  selIdle := true
  tHalf := 71
  eByte := 20
  txnGap := 20
  tWd := 20000
  tIdle := 4000
  idleDefault := 3
  chordMask := 0x40
  serialMarker := 0xC0
  serialPerm := .default

/-- The permutation maps the six report bytes onto the six slots one to one (R5 item 5). -/
abbrev SerialPerm.Bijective (q : SerialPerm) : Prop := q.src.toList.Nodup

/-- Every value lies in the range of the table in R4 (R5 item 6). The ranges of the byte-wide parameters hold by
their type. -/
abbrev Params.InRange (p : Params) : Prop :=
  1 ≤ p.tbHz ∧ (1 ≤ p.tPoll ∧ p.tPoll ≤ 65535) ∧ (1 ≤ p.tGap ∧ p.tGap ≤ 65535) ∧ p.tSettle ≤ 65535 ∧
  (1 ≤ p.tHalf ∧ p.tHalf ≤ 65535) ∧ (18 ≤ p.eByte ∧ p.eByte ≤ 255) ∧ p.txnGap ≤ 255 ∧
  (1 ≤ p.tWd ∧ p.tWd ≤ 65535) ∧ (1 ≤ p.tIdle ∧ p.tIdle ≤ 65535)

/-- A legal parameter record (00_scope.md R5): items 1 (settle before the next tick), 3 (watchdog beyond a healthy
transaction), 4 (a chord), 5 (the permutation), then 6 with item 2 (`E_BYTE ≥ 18`) inside it. -/
abbrev Params.Legal (p : Params) : Prop :=
  p.tSettle < p.tPoll ∧ 9 * p.eByte * p.tHalf < p.tWd ∧ p.chordMask ≠ 0 ∧ p.serialPerm.Bijective ∧ p.InRange

/-- `CMD[b]` (30_encoding.md R57): 0x01, 0x42, then 0xFF filler. -/
def cmdByte (b : Nat) : Byte :=
  if b = 0 then 0x01 else if b = 1 then 0x42 else 0xFF

end Sys2Proof
end

