-- ==== Sys2Proof/Machine/State.lean ====
section
/-! DEFINITION. The state of the core as plain data: the elements of 10_state.md R14 to R30, the parameter record, and
the model's own fields (the current inputs, the outputs of the step, the words still to come, a counter for free
values); and the state right after reset (70_reset_and_hazards.md R130). -/

namespace Sys2Proof.Machine

/-- The reasons of a model fault (60_exceptions.md R119). They belong to the model, not to the hardware. A rule that
meets one writes it into `State.fault`; a step other than RESET from such a state answers it (R58, R59; log 10). -/
inductive Fault where
  /-- STATE_RANGE. Raised by POLL_TICK for `phase` > 8 (R68), by SAMPLE_LATCH for `phase` > 7 (R72) and by sub-step S7
  for `mode` = 3 (R26). Safe: the model stops. -/
  | stateRange
  /-- COUNTER_RANGE. Raised by every counter write that would leave the counter's legal range (R10), and by SER_EDGE
  for an index outside its range (log 12). Safe: the model stops. -/
  | counterRange
  deriving DecidableEq, Repr

/-- What has no meaning in the model. -/
inductive Refusal where
  /-- Raised by a refused arm of `exec`, of which there is none. Safe. -/
  | notModelled (mnemonic : String)
  /-- Raised by `step` when the parameter record breaks a rule of 00_scope.md R5, which says to refuse it
  (93_implementation_defined.md U4). Safe: the model stops. -/
  | illegalParams
  deriving DecidableEq, Repr

/-- `mode` (10_state.md R26), a u2. -/
inductive Mode where
  | undecided
  | mux
  | serial
  /-- The value 3: unreachable, and a fault where it is found. -/
  | three
  deriving DecidableEq, Repr

/-- `ser_phase` (10_state.md R19), a u1. -/
inductive SerPhase where
  | gap
  | active
  deriving DecidableEq, Repr

/-- The report buffer `rpt[0..5]` (10_state.md R27), its bytes named as 20_memory.md R38 names them. -/
structure Report where
  x1 : Byte
  y1 : Byte
  x2 : Byte
  y2 : Byte
  buttons1 : Byte
  buttons2 : Byte
  deriving DecidableEq, Repr

/-- `resp_kind` with the data bytes that a response carries (10_state.md R33): NONE, DATA, ACK, UNHANDLED. -/
inductive Resp where
  | none
  | data (bytes : List Byte)
  | ack
  | unhandled
  deriving DecidableEq, Repr

structure State where
  /-- The parameter record (00_scope.md R4): fixed for the life of a run; nothing writes it (log 1). -/
  params : Params
  /-- `phase`, u4, 0…8 (R14). -/
  phase : Nat
  /-- `sel`, u1 (R15). -/
  sel : Bool
  /-- `sel_oe`, u1 (R15). -/
  selOe : Bool
  /-- `need_sample`, u1 (R16). -/
  needSample : Bool
  /-- `st_cnt`, u16, 0…T_SETTLE (R16). -/
  stCnt : Nat
  /-- `raw[c][p]`, sixteen bytes (R17); bits 7:6 read 1 through `State.readRaw` (R31; log 19). -/
  raw : Vector (Vector Byte 8) 2
  /-- `pt_en`, u1 (R18). -/
  ptEn : Bool
  /-- `pt_period`, u16, T_POLL or T_GAP (R18). -/
  ptPeriod : Nat
  /-- `pt_cnt`, u16, 1…65535 (R18). -/
  ptCnt : Nat
  /-- `ser_en`, u1 (R19). -/
  serEn : Bool
  /-- `ser_oe`, u1 (R19). -/
  serOe : Bool
  /-- `ser_phase`, u1 (R19). -/
  serPhase : SerPhase
  /-- `gap_cnt`, u8, 0…TXN_GAP (R19). -/
  gapCnt : Nat
  /-- `byte_idx`, u4, 0…8 (R20). -/
  byteIdx : Nat
  /-- `edge_idx`, u8, 0…E_BYTE−1 (R20). -/
  edgeIdx : Nat
  /-- `acc[0..5]` (R21). -/
  acc : Vector Byte 6
  /-- `att`, u1, 0 = asserted (R22). -/
  att : Bool
  /-- `clk`, u1 (R22). -/
  clk : Bool
  /-- `cmd`, u1 (R22). -/
  cmd : Bool
  /-- `sc_cnt`, u16, 1…T_HALF (R23). -/
  scCnt : Nat
  /-- `wd_armed`, u1 (R24). -/
  wdArmed : Bool
  /-- `wd_cnt`, u16, 0…T_WD (R24). -/
  wdCnt : Nat
  /-- `sample_complete`, u1 (R25). -/
  sampleComplete : Bool
  /-- `mode`, u2 (R26). -/
  mode : Mode
  /-- `rpt[0..5]` (R27). -/
  rpt : Report
  /-- `idle_rate`, u8 (R28). -/
  idleRate : Byte
  /-- `idle_cnt`, u8, 0…255 (R28). -/
  idleCnt : Nat
  /-- `idle_elapsed`, u1 (R28). -/
  idleElapsed : Bool
  /-- `it_cnt`, u16, 1…T_IDLE (R28). -/
  itCnt : Nat
  /-- `send_pending`, u1 (R29). -/
  sendPending : Bool
  /-- `fault` (R30). -/
  fault : Option Fault
  /-- MODEL: the inputs of the current step (R32; log 6). -/
  pins : Stim
  /-- MODEL: `tx_valid` and `tx_data` of the current step (R33; log 7). -/
  tx : Option Report
  /-- MODEL: the response of the current step (R33; log 7). -/
  resp : Resp
  /-- MODEL: the event codes of the current step, in sub-step order (R52; log 7). -/
  trace : List Byte
  /-- MODEL: stimulus words already given, oldest first (log 4). -/
  inputs : List StimWord
  /-- MODEL: how many words the steps have taken; the index of the free values (log 5). -/
  seq : Nat
  deriving DecidableEq, Repr

/-- Lines released, nothing else: the inputs that stand in `pins` after reset. DESIGN CHOICE (log 6). -/
def releasedPins : Stim :=
  { lines0 := 0x3F, lines1 := 0x3F, dat := false, epRdy := false, hold := false, reqv := false, rqt := 0, rq := 0,
    wval := 0 }

/-- The source's safe default, "centered axis, released button" (R27, R130). -/
def Report.safeDefault : Report :=
  { x1 := 0x7F, y1 := 0x7F, x2 := 0x7F, y2 := 0x7F, buttons1 := 0x00, buttons2 := 0x00 }

/-- The reset state of a core with the parameters `p` (R130), with the outputs of the RESET step (R59). -/
def State.resetWith (p : Params) : State where
  params := p
  phase := 8
  sel := p.selIdle
  selOe := true
  needSample := false
  stCnt := 0
  raw := Vector.replicate 2 (Vector.replicate 8 0xFF)
  ptEn := true
  ptPeriod := p.tPoll
  ptCnt := p.tPoll
  serEn := false
  serOe := false
  serPhase := .gap
  gapCnt := 0
  byteIdx := 0
  edgeIdx := 0
  acc := Vector.replicate 6 0x00
  att := true
  clk := true
  cmd := true
  scCnt := p.tHalf
  wdArmed := false
  wdCnt := 0
  sampleComplete := false
  mode := .undecided
  rpt := .safeDefault
  idleRate := p.idleDefault
  idleCnt := 0
  idleElapsed := false
  itCnt := p.tIdle
  sendPending := false
  fault := none
  pins := releasedPins
  tx := none
  resp := .none
  trace := [0xF0]
  inputs := []
  seq := 0

/-- The machine right after reset, with the default parameters (logs 1 and 2). -/
def State.reset : State := State.resetWith Params.default

end Sys2Proof.Machine
end

