-- ==== Sys2Proof/Machine/Ops.lean ====
section
/-! DEFINITION. The operations that the meanings share: the trace, model faults, the atomic sequence of sub-steps, the
three storage spaces, the counters with their legal ranges, the timer primitive and the next stimulus word. The core
takes no exception: it has no trap, no saved state and no handler address (60_exceptions.md R114, R122, R123). What
stands in that place is the model fault of R119 (`State.raise`), and RESET is the only way back (R59). -/

namespace Sys2Proof.Machine

/-! ## Trace, faults and sequence -/

/-- `emit EVT` (00_scope.md R9, 30_encoding.md R52). -/
def State.emit (s : State) (c : Byte) : State := { s with trace := s.trace ++ [c] }

/-- `raise Fault(reason)` (00_scope.md R9, 60_exceptions.md R119): the state element `fault` holds the reason. -/
def State.raise (s : State) (r : Fault) : State := { s with fault := some r }

/-- `f` after what gave `s`, unless that raised a fault: a faulted state takes no further part of a step (R30). -/
def State.andThen (s : State) (f : State → State) : State :=
  match s.fault with
  | none => f s
  | some _ => s

/-- An operation that takes a state without a fault to a next state, and takes no step from a faulted one (R30,
40_timing_service.md R58). -/
def runOp (f : State → State) (s : State) : Host.Outcome State Fault Refusal :=
  match s.fault with
  | none => .next (f s)
  | some r => .fault r

/-! ## Storage spaces (20_memory.md R37) -/

/-- The raw table's index for a phase: phases 0…7 only (10_state.md R14). -/
def rawIndex (phase : Nat) : Option (Fin 8) := if h : phase < 8 then some ⟨phase, h⟩ else none

/-- Read of `raw[c][p]`. Bits 7 and 6 of every entry always read 1 (10_state.md R17, R31; log 19). -/
def State.readRaw (s : State) (c : Fin 2) (p : Fin 8) : Byte := s.raw[c][p] ||| 0xC0

/-- The byte that a latch stores: `{0b11, lines[5:0]}` (41_mux_engine.md R73). -/
def rawByte (l : Lines) : Byte := 0b11#2 ++ l

/-- Write of `raw[0][p]` and `raw[1][p]`, both in one sub-step (20_memory.md R41). -/
def State.latchRaw (s : State) (p : Fin 8) (l0 l1 : Lines) : State :=
  { s with raw := #v[s.raw[0].set p (rawByte l0), s.raw[1].set p (rawByte l1)] }

/-- The accumulator slot of transaction byte b: slot i holds byte i + 3; the header bytes 0…2 have none (10_state.md
R21, 42_serial_engine.md R88). -/
def accSlot (b : Nat) : Option (Fin 6) := if h : 3 ≤ b ∧ b ≤ 8 then some ⟨b - 3, by omega⟩ else none

/-- One bit assembled LSB first: `(v >> 1) | (dat << 7)` (42_serial_engine.md R81). -/
def shiftIn (v : Byte) (dat : Bool) : Byte := (v >>> 1) ||| ((BitVec.ofBool dat).setWidth 8 <<< 7)

/-- Shift of `acc[i]` by one response bit (R81). -/
def State.shiftAcc (s : State) (i : Fin 6) (dat : Bool) : State := { s with acc := s.acc.set i (shiftIn s.acc[i] dat) }

/-- `acc[0..5] ← 0x00` (42_serial_engine.md R79, R86). -/
def State.clearAcc (s : State) : State := { s with acc := Vector.replicate 6 0x00 }

/-- `MemRead(REPORT, 6)`: the six bytes as one unit (00_scope.md R9, 20_memory.md R41). -/
def State.memReadReport (s : State) : Report := s.rpt

/-- `MemWrite(REPORT, 6, v)`: the six bytes change together (R9, R41). -/
def State.memWriteReport (s : State) (r : Report) : State := { s with rpt := r }

/-- The report's bytes in the order in which it leaves the core: byte 0 first (20_memory.md R39). -/
def Report.toList (r : Report) : List Byte := [r.x1, r.y1, r.x2, r.y2, r.buttons1, r.buttons2]

/-! ## Counter writes

Every counter write is exact and stays in the counter's legal range, or raises COUNTER_RANGE (00_scope.md R10,
60_exceptions.md R119; log 11). No counter wraps. -/

/-- Write of `phase`, legal 0…8 (10_state.md R14). -/
def State.putPhase (s : State) (v : Nat) : State :=
  if v ≤ 8 then { s with phase := v } else s.raise .counterRange

/-- Write of `pt_cnt`, legal 1…65535 (R18). -/
def State.putPtCnt (s : State) (v : Nat) : State :=
  if 1 ≤ v ∧ v ≤ 65535 then { s with ptCnt := v } else s.raise .counterRange

/-- Write of `st_cnt`, legal 0…T_SETTLE (R16). -/
def State.putStCnt (s : State) (v : Nat) : State :=
  if v ≤ s.params.tSettle then { s with stCnt := v } else s.raise .counterRange

/-- Write of `gap_cnt`, legal 0…TXN_GAP (R19). -/
def State.putGapCnt (s : State) (v : Nat) : State :=
  if v ≤ s.params.txnGap then { s with gapCnt := v } else s.raise .counterRange

/-- Write of `byte_idx`, legal 0…8 (R20). -/
def State.putByteIdx (s : State) (v : Nat) : State :=
  if v ≤ 8 then { s with byteIdx := v } else s.raise .counterRange

/-- Write of `edge_idx`, legal 0…E_BYTE−1 (R20). -/
def State.putEdgeIdx (s : State) (v : Nat) : State :=
  if v < s.params.eByte then { s with edgeIdx := v } else s.raise .counterRange

/-- Write of `sc_cnt`, legal 1…T_HALF (R23). -/
def State.putScCnt (s : State) (v : Nat) : State :=
  if 1 ≤ v ∧ v ≤ s.params.tHalf then { s with scCnt := v } else s.raise .counterRange

/-- Write of `wd_cnt`, legal 0…T_WD (R24). -/
def State.putWdCnt (s : State) (v : Nat) : State :=
  if v ≤ s.params.tWd then { s with wdCnt := v } else s.raise .counterRange

/-- Write of `idle_cnt`, legal 0…255 (R28). -/
def State.putIdleCnt (s : State) (v : Nat) : State :=
  if v ≤ 255 then { s with idleCnt := v } else s.raise .counterRange

/-- Write of `it_cnt`, legal 1…T_IDLE (R28). -/
def State.putItCnt (s : State) (v : Nat) : State :=
  if 1 ≤ v ∧ v ≤ s.params.tIdle then { s with itCnt := v } else s.raise .counterRange

/-- The write `cnt ← cnt − 1` through `put`. A counter at 0 has no value below it: that is COUNTER_RANGE (R10). -/
def State.countDown (s : State) (put : State → Nat → State) (cnt : Nat) : State :=
  match cnt with
  | 0 => s.raise .counterRange
  | n + 1 => put s n

/-! ## The timer primitive -/

/-- A periodic timer's sub-step (40_timing_service.md R60): nothing while disabled; at count 1 the handler, then the
reload with the period read after the handler; otherwise one count down. -/
def periodicTimer (en : Bool) (cnt : Nat) (put : State → Nat → State) (handler : State → State)
    (period : State → Nat) (s : State) : State :=
  if en then
    if cnt = 1 then (handler s).andThen fun t => put t (period t) else s.countDown put cnt
  else s

/-- A one-shot counter's sub-step (R62, R65): while armed, the handler at the count `last`, otherwise one count
down. -/
def oneShot (armed : Bool) (cnt last : Nat) (put : State → Nat → State) (handler : State → State) (s : State) : State :=
  if armed then
    if cnt = last then handler s else s.countDown put cnt
  else s

/-! ## The next stimulus word -/

/-- The word of the next step: the oldest word given, or else the environment's free draw (10_state.md R36; log 4). -/
def State.nextWord (s : State) : StimWord :=
  match s.inputs with
  | w :: _ => w
  | [] => Config.freeStim s.seq

/-- The state once that word is taken. -/
def State.takeWord (s : State) : State := { s with inputs := s.inputs.tail, seq := s.seq + 1 }

/-- The start of STEP (40_timing_service.md R58): the step's inputs stand on the pins (10_state.md R32), and
`trace ← []; tx_valid ← 0; resp_kind ← NONE`. -/
def State.beginStep (s : State) (stim : Stim) : State :=
  { s with pins := stim, trace := [], tx := none, resp := .none }

end Sys2Proof.Machine
end

