-- ==== Sys2Proof/Machine/Flags.lean ====
section
/-! DEFINITION. The five status flags (10_state.md R35): what sets and what clears each. The core has no condition
codes, and no operation sets a flag as a side effect of arithmetic. -/

namespace Sys2Proof.Machine

/-- `need_sample ← 1; st_cnt ← T_SETTLE`: a latch is due after the settle delay (41_mux_engine.md R69, R71). -/
def State.armLatch (s : State) : State := { s with needSample := true, stCnt := s.params.tSettle }

/-- `need_sample ← 0` (R72; 43_mode_arbiter.md R95). -/
def State.clearNeedSample (s : State) : State := { s with needSample := false }

/-- `sample_complete ← 1` (R70; 42_serial_engine.md R85). -/
def State.markComplete (s : State) : State := { s with sampleComplete := true }

/-- `sample_complete ← 0` (44_report_formatter.md R104; R95). -/
def State.clearComplete (s : State) : State := { s with sampleComplete := false }

/-- CHANGE(new): `send_pending ← 1` when the new report differs from the held one in any byte; otherwise the flag is
left as it is (44_report_formatter.md R103). -/
def State.noteChange (s : State) (new : Report) : State :=
  if new ≠ s.rpt then { s with sendPending := true } else s

/-- `idle_elapsed ← 1` (45_idle_transmit_host.md R106). -/
def State.setElapsed (s : State) : State := { s with idleElapsed := true }

/-- `idle_cnt ← 0; idle_elapsed ← 0` (R107, R110). -/
def State.restartIdleCount (s : State) : State := { s with idleCnt := 0, idleElapsed := false }

/-- `send_pending ← 0` (R107). -/
def State.clearPending (s : State) : State := { s with sendPending := false }

/-- `wd_armed ← 1; wd_cnt ← T_WD` (42_serial_engine.md R79). -/
def State.armWatchdog (s : State) : State := { s with wdArmed := true, wdCnt := s.params.tWd }

/-- `wd_armed ← 0; wd_cnt ← 0` (R85, R86; R95). -/
def State.disarmWatchdog (s : State) : State := { s with wdArmed := false, wdCnt := 0 }

end Sys2Proof.Machine
end

