-- ==== Sys2Proof/Machine/Operands.lean ====
section
/-! DEFINITION. The operand forms: the active-high phase bytes of the multiplexed decode (44_report_formatter.md R97),
the command bit of a serial edge (42_serial_engine.md R82, R87) and the accumulator operand of the serial build
(R102). The SET_IDLE operand `WVAL[15:8]` is `idleOperand` of Decode.lean (30_encoding.md R48). -/

namespace Sys2Proof.Machine

/-- `P2(c) = ~raw[c][2]`: Start at bit 4, A at bit 5 (R97; 41_mux_engine.md R75). -/
def State.p2 (s : State) (c : Fin 2) : Byte := ~~~ (s.readRaw c 2)

/-- `P3(c) = ~raw[c][3]`: Up, Down, Left, Right, B, C at bits 0 to 5. -/
def State.p3 (s : State) (c : Fin 2) : Byte := ~~~ (s.readRaw c 3)

/-- `P5(c) = ~raw[c][5]`: Z, Y, X, Mode at bits 0 to 3. -/
def State.p5 (s : State) (c : Fin 2) : Byte := ~~~ (s.readRaw c 5)

/-- `CMD[b][k]`, bit k of the command byte, sent LSB first (20_memory.md R39, R87). -/
def cmdBit (b k : Nat) : Bool := (cmdByte b).getLsbD k

/-- What report byte i copies in serial mode: `inv[i] ? ~acc[src[i]] : acc[src[i]]` (R102). -/
def serialSource (q : SerialPerm) (acc : Vector Byte 6) (i : Fin 6) : Byte :=
  if q.inv[i] then ~~~ acc[q.src[i]] else acc[q.src[i]]

end Sys2Proof.Machine
end

