-- ==== Sys2Proof/Machine/Report.lean ====
section
/-! DEFINITION. The Report Builder: the decode functions and the two builds (44_report_formatter.md R97 to R105). -/

namespace Sys2Proof.Machine

/-- AXIS(neg, pos) (R98): negative extreme, positive extreme, or centered for neither and for both. -/
def axis (neg pos : Bool) : Byte :=
  if neg && !pos then 0x00 else if pos && !neg then 0xFF else 0x7F

/-- `X(c)`: Left is negative, Right positive (R98). -/
def State.xAxis (s : State) (c : Fin 2) : Byte := axis ((s.p3 c).getLsbD 2) ((s.p3 c).getLsbD 3)

/-- `Y(c)`: Up is negative, Down positive (R98). -/
def State.yAxis (s : State) (c : Fin 2) : Byte := axis ((s.p3 c).getLsbD 0) ((s.p3 c).getLsbD 1)

/-- `SIX(c)` (R99): phase 5 differs from phase 3. -/
def State.six (s : State) (c : Fin 2) : Bool := s.readRaw c 5 != s.readRaw c 3

/-- `BTN(c)` (R100). -/
def State.btn (s : State) (c : Fin 2) : Byte :=
  ((s.p2 c &&& 0x30) <<< 2) ||| (s.p3 c &&& 0x30) ||| (if s.six c then s.p5 c &&& 0x0F else 0)

/-- The report that BUILD_MUX makes (R101). -/
def State.muxReport (s : State) : Report where
  x1 := s.xAxis 0
  y1 := s.yAxis 0
  x2 := s.xAxis 1
  y2 := s.yAxis 1
  buttons1 := s.btn 0
  buttons2 := s.btn 1

/-- The report that BUILD_SER makes (R102). -/
def State.serReport (s : State) : Report where
  x1 := serialSource s.params.serialPerm s.acc 0
  y1 := serialSource s.params.serialPerm s.acc 1
  x2 := serialSource s.params.serialPerm s.acc 2
  y2 := serialSource s.params.serialPerm s.acc 3
  buttons1 := serialSource s.params.serialPerm s.acc 4
  buttons2 := serialSource s.params.serialPerm s.acc 5

/-- What both builds do with the new report: CHANGE, the atomic write, the flag cleared (R101 to R104). -/
def State.build (s : State) (new : Report) : State := ((s.noteChange new).memWriteReport new).clearComplete

/-- BUILD_MUX (R101). -/
def opBuildMux (s : State) : State := (s.build s.muxReport).emit 0x31

/-- BUILD_SER (R102). -/
def opBuildSer (s : State) : State := (s.build s.serReport).emit 0x32

def execBuildMux (s : State) : Host.Outcome State Fault Refusal := runOp opBuildMux s
def execBuildSer (s : State) : Host.Outcome State Fault Refusal := runOp opBuildSer s

end Sys2Proof.Machine
end

