-- ==== Sys2Proof/Machine/Serial.lean ====
section
/-! DEFINITION. The Serial-Pad Engine: the serial tick, the clock edges of a transaction, its completion, and the
watchdog's expiry (42_serial_engine.md R77 to R88). -/

namespace Sys2Proof.Machine

/-- `att`, `clk` and `cmd` at their idle level 1 (10_state.md R22). -/
def State.idleLines (s : State) : State := { s with att := true, clk := true, cmd := true }

/-- The position between transactions: both indices 0, GAP, and `gap_cnt ← TXN_GAP` (R85, R86;
43_mode_arbiter.md R95). -/
def State.enterGap (s : State) : State :=
  { s with byteIdx := 0, edgeIdx := 0, serPhase := .gap, gapCnt := s.params.txnGap }

/-- SER_GAP (R78). -/
def opSerGap (s : State) : State := (s.countDown State.putGapCnt s.gapCnt).andThen fun t => t.emit 0x10

/-- SER_START (R79): the accumulator cleared, the indices at 0, attention asserted, ACTIVE, the watchdog armed. -/
def opSerStart (s : State) : State :=
  ({ s.clearAcc with byteIdx := 0, edgeIdx := 0, att := false, serPhase := .active }.armWatchdog).emit 0x11

/-- SER_COMPLETE (R85). -/
def opSerComplete (s : State) : State := (s.enterGap.idleLines.disarmWatchdog.markComplete).emit 0x13

/-- WDOG_EXPIRE (R86): as a completion, but the accumulator is cleared and no sample set is marked. -/
def opWdogExpire (s : State) : State := (s.clearAcc.enterGap.idleLines.disarmWatchdog).emit 0x14

/-- Action (1) of SER_EDGE (R80): in the active window the clock is 0 after an even edge and 1 after an odd one. -/
def edgeClock (e : Nat) (s : State) : State := if e < 16 then { s with clk := e % 2 == 1 } else s

/-- Action (2) (R81): on the rising edges past the command-byte boundary, the response bit into its slot. -/
def edgeShift (b e : Nat) (s : State) : State :=
  if e < 16 ∧ e % 2 = 1 then
    match accSlot b with
    | some i => s.shiftAcc i s.pins.dat
    | none => s
  else s

/-- Action (3) (R82): data-out at the falling edges, and back to 1 at edge 16. -/
def edgeDataOut (b e : Nat) (s : State) : State :=
  if e < 16 ∧ e % 2 = 0 then { s with cmd := cmdBit b (e / 2) }
  else if e = 16 then { s with cmd := true }
  else s

/-- Action (4) (R83): attention released one bit period after the last bit of byte 8. -/
def edgeAttention (b e : Nat) (s : State) : State := if b = 8 ∧ e = 17 then { s with att := true } else s

/-- The advance (R84): the next edge, the next byte, or the completion. -/
def edgeAdvance (b e : Nat) (s : State) : State :=
  if e + 1 = s.params.eByte then
    if b + 1 = 9 then opSerComplete s
    else (s.putByteIdx (b + 1)).andThen fun t => t.putEdgeIdx 0
  else s.putEdgeIdx (e + 1)

/-- SER_EDGE (R80 to R84). An index outside its legal range is a fault at entry (10_state.md R20; log 12). -/
def opSerEdge (s : State) : State :=
  if s.byteIdx ≤ 8 ∧ s.edgeIdx < s.params.eByte then
    edgeAdvance s.byteIdx s.edgeIdx (edgeAttention s.byteIdx s.edgeIdx (edgeDataOut s.byteIdx s.edgeIdx
      (edgeShift s.byteIdx s.edgeIdx (edgeClock s.edgeIdx (s.emit 0x12)))))
  else s.raise .counterRange

/-- SER_TICK, the dispatch of the serial timer's handler (R77). -/
def opSerTick (s : State) : State :=
  match s.serPhase with
  | .gap => if 0 < s.gapCnt then opSerGap s else opSerStart s
  | .active => opSerEdge s

def execWdogExpire (s : State) : Host.Outcome State Fault Refusal := runOp opWdogExpire s
def execSerGap (s : State) : Host.Outcome State Fault Refusal := runOp opSerGap s
def execSerStart (s : State) : Host.Outcome State Fault Refusal := runOp opSerStart s
def execSerEdge (s : State) : Host.Outcome State Fault Refusal := runOp opSerEdge s
def execSerComplete (s : State) : Host.Outcome State Fault Refusal := runOp opSerComplete s

end Sys2Proof.Machine
end

