-- ==== Sys2Proof/Machine/Arbiter.lean ====
section
/-! DEFINITION. The Mode Arbitrator (43_mode_arbiter.md R90 to R96). -/

namespace Sys2Proof.Machine

/-- The chord predicate: every bit of CHORD_MASK is set in `BTN(1)` (R91). -/
def State.chord (s : State) : Bool := (s.btn 1 &&& s.params.chordMask) == s.params.chordMask

/-- The marker predicate: `raw[0][7] = SERIAL_MARKER`, all eight bits (R92). -/
def State.marker (s : State) : Bool := s.readRaw 0 7 == s.params.serialMarker

/-- SELECT_MUX (R94). -/
def selectMux (s : State) : State := { s with mode := .mux }

/-- SELECT_SERIAL (R95): the multiplexed timer and the select drive off, the first sample set discarded, the serial
engine's timers and lines at their start. -/
def selectSerial (s : State) : State :=
  (({ s with
      mode := .serial, ptEn := false, selOe := false,
      serEn := true, scCnt := s.params.tHalf, serOe := true }.clearNeedSample.clearComplete).idleLines.enterGap
    ).clearAcc.disarmWatchdog

/-- ARBITRATE (R90): serial mode for the marker without the chord, else multiplexed mode. -/
def opArbitrate (s : State) : State :=
  if s.marker && !s.chord then selectSerial (s.emit 0x30) else selectMux (s.emit 0x30)

def execArbitrate (s : State) : Host.Outcome State Fault Refusal := runOp opArbitrate s

end Sys2Proof.Machine
end

