-- ==== Sys2Proof/Machine/IdleHost.lean ====
section
/-! DEFINITION. The Idle/Transmit Scheduler and the host class requests (45_idle_transmit_host.md R106 to R111). -/

namespace Sys2Proof.Machine

/-- The count of IDLE_TICK (R106): one more tick, and elapsed when the count reaches the rate. -/
def State.countIdle (s : State) : State :=
  (s.putIdleCnt (s.idleCnt + 1)).andThen fun t => if t.idleRate.toNat ≤ t.idleCnt then t.setElapsed else t

/-- IDLE_TICK (R106): nothing is counted at rate 0 or once elapsed. -/
def opIdleTick (s : State) : State :=
  if s.idleRate ≠ 0 ∧ s.idleElapsed = false then (s.emit 0x20).countIdle else s.emit 0x20

/-- TRANSMIT (R107): the report handed over, both causes cleared, the idle timer re-armed. -/
def opTransmit (s : State) : State :=
  ({ s with tx := some s.memReadReport, itCnt := s.params.tIdle }.clearPending.restartIdleCount).emit 0x33

/-- GET_REPORT (R108): the six report bytes, byte 0 first. -/
def opGetReport (s : State) : State := { s with resp := .data s.memReadReport.toList }.emit 0x40

/-- GET_IDLE (R109): the idle rate. -/
def opGetIdle (s : State) : State := { s with resp := .data [s.idleRate] }.emit 0x41

/-- SET_IDLE (R110): the rate stored, 0 as 0; the idle count restarts; ACK. -/
def opSetIdle (rate : Byte) (s : State) : State :=
  ({ s with idleRate := rate, resp := .ack }.restartIdleCount).emit 0x42

/-- REQ_UNHANDLED (R111): the answer and nothing else. -/
def opReqUnhandled (s : State) : State := { s with resp := .unhandled }.emit 0x4F

/-- The dispatch of sub-step S1 on the request map (30_encoding.md R49). -/
def opRequest (r : Request) (s : State) : State :=
  match r with
  | .getReport => opGetReport s
  | .getIdle => opGetIdle s
  | .setIdle rate => opSetIdle rate s
  | .unhandled _ _ => opReqUnhandled s

def execGetReport (s : State) : Host.Outcome State Fault Refusal := runOp opGetReport s
def execGetIdle (s : State) : Host.Outcome State Fault Refusal := runOp opGetIdle s
def execSetIdle (rate : Byte) (s : State) : Host.Outcome State Fault Refusal := runOp (opSetIdle rate) s
def execReqUnhandled (s : State) : Host.Outcome State Fault Refusal := runOp opReqUnhandled s
def execIdleTick (s : State) : Host.Outcome State Fault Refusal := runOp opIdleTick s
def execTransmit (s : State) : Host.Outcome State Fault Refusal := runOp opTransmit s

end Sys2Proof.Machine
end

