-- ==== Sys2Proof/Machine/Mux.lean ====
section
/-! DEFINITION. The Multiplexed-Pad Engine: the poll tick and the sample latch (41_mux_engine.md R68 to R76). -/

namespace Sys2Proof.Machine

/-- POLL_ADVANCE (R69): toggle the select line, advance the phase, arm the latch. -/
def opPollAdvance (s : State) : State :=
  ({ s with sel := !s.sel }.putPhase (s.phase + 1)).andThen fun t => t.armLatch.emit 0x01

/-- POLL_FINISH (R70): select to its idle level, the inter-packet period, phase 8, the sample set complete. -/
def opPollFinish (s : State) : State :=
  ({ s with sel := s.params.selIdle, ptPeriod := s.params.tGap, phase := 8 }.markComplete).emit 0x02

/-- POLL_RESTART (R71): the normal period, phase 0, the latch armed; the select line is not toggled. -/
def opPollRestart (s : State) : State :=
  ({ s with ptPeriod := s.params.tPoll, phase := 0 }.armLatch).emit 0x03

/-- POLL_TICK, the dispatch of the poll timer's handler (R68). -/
def opPollTick (s : State) : State :=
  if s.phase ≤ 6 then opPollAdvance s
  else if s.phase = 7 then opPollFinish s
  else if s.phase = 8 then opPollRestart s
  else s.raise .stateRange

/-- SAMPLE_LATCH (R72): the lines of this step into the raw table at index `phase`, for both ports. -/
def opSampleLatch (s : State) : State :=
  match rawIndex s.phase with
  | some p => ((s.latchRaw p s.pins.lines0 s.pins.lines1).clearNeedSample).emit 0x04
  | none => s.raise .stateRange

def execPollAdvance (s : State) : Host.Outcome State Fault Refusal := runOp opPollAdvance s
def execPollFinish (s : State) : Host.Outcome State Fault Refusal := runOp opPollFinish s
def execPollRestart (s : State) : Host.Outcome State Fault Refusal := runOp opPollRestart s
def execSampleLatch (s : State) : Host.Outcome State Fault Refusal := runOp opSampleLatch s

end Sys2Proof.Machine
end

