-- ==== Sys2Proof/Machine/Timing.lean ====
section
/-! DEFINITION. The Timing Service and the two top operations: the sub-steps S1 to S9, STEP and RESET
(40_timing_service.md R58 to R66). -/

namespace Sys2Proof.Machine

/-- S1, the host request: nothing when REQV = 0 (R58; 30_encoding.md R51). -/
def subRequest (s : State) : State := if s.pins.reqv then opRequest s.pins.request s else s

/-- S2, the idle timer: always enabled (R61). -/
def subIdleTimer (s : State) : State :=
  periodicTimer true s.itCnt State.putItCnt opIdleTick (fun t => t.params.tIdle) s

/-- S3, the watchdog: a one-shot that counts whatever HOLD is (R62). -/
def subWatchdog (s : State) : State := oneShot s.wdArmed s.wdCnt 1 State.putWdCnt opWdogExpire s

/-- S4, the serial timer: held while HOLD = 1 (R63). -/
def subSerialTimer (s : State) : State :=
  periodicTimer (s.serEn && !s.pins.hold) s.scCnt State.putScCnt opSerTick (fun t => t.params.tHalf) s

/-- S5, the poll timer: the period is read after the handler (R64). -/
def subPollTimer (s : State) : State :=
  periodicTimer s.ptEn s.ptCnt State.putPtCnt opPollTick (fun t => t.ptPeriod) s

/-- S6, the settle one-shot (R65). -/
def subSettle (s : State) : State := oneShot s.needSample s.stCnt 0 State.putStCnt opSampleLatch s

/-- S7, arbitration. It reads `mode` in every step, so `mode` = 3 is found here (R58; 10_state.md R26; log 13). -/
def subArbitrate (s : State) : State :=
  match s.mode with
  | .undecided => if s.sampleComplete then opArbitrate s else s
  | .mux | .serial => s
  | .three => s.raise .stateRange

/-- S8, the report build (R58). -/
def subBuild (s : State) : State :=
  if s.sampleComplete then
    match s.mode with
    | .mux => opBuildMux s
    | .serial => opBuildSer s
    | .undecided | .three => s
  else s

/-- S9, the transmit (R58; 45_idle_transmit_host.md R107). -/
def subTransmit (s : State) : State :=
  if s.mode ≠ .undecided ∧ s.pins.epRdy = true ∧ (s.sendPending = true ∨ s.idleElapsed = true) then opTransmit s else s

/-- S2 to S9 in their fixed order; a fault ends the step (R58, R119). -/
def afterRequest (s : State) : State :=
  (((((((s.andThen subIdleTimer).andThen subWatchdog).andThen subSerialTimer).andThen subPollTimer).andThen
    subSettle).andThen subArbitrate).andThen subBuild).andThen subTransmit

/-- STEP (R58) for a state without a fault. -/
def opStep (stim : Stim) (s : State) : State := afterRequest (subRequest (s.beginStep stim))

/-- RESET (R59): every state element at its reset value (70_reset_and_hazards.md R130), `fault` cleared. The parameter
record is no state of the core (10_state.md R12), and the words still to come are the environment's. -/
def opReset (s : State) : State := { State.resetWith s.params with inputs := s.inputs, seq := s.seq }

def execStep (stim : Stim) (s : State) : Host.Outcome State Fault Refusal := runOp (opStep stim) s

/-- RESET applies to a faulted state too, and is the only way out of it (R59, R129; log 9). -/
def execReset (s : State) : Host.Outcome State Fault Refusal := .next (opReset s)

end Sys2Proof.Machine
end

