-- ==== Sys2Proof/Machine/Dispatch.lean ====
section
/-! DEFINITION. The meaning of each operation, one arm for each row of the opcode table. -/

namespace Sys2Proof.Machine

def exec (i : Instr) (s : State) : Host.Outcome State Fault Refusal :=
  match i with
  | .step stim => Sys2Proof.Machine.execStep stim s
  | .reset => Sys2Proof.Machine.execReset s
  | .getReport => Sys2Proof.Machine.execGetReport s
  | .getIdle => Sys2Proof.Machine.execGetIdle s
  | .setIdle rate => Sys2Proof.Machine.execSetIdle rate s
  | .reqUnhandled _ _ => Sys2Proof.Machine.execReqUnhandled s
  | .idleTick => Sys2Proof.Machine.execIdleTick s
  | .wdogExpire => Sys2Proof.Machine.execWdogExpire s
  | .serGap => Sys2Proof.Machine.execSerGap s
  | .serStart => Sys2Proof.Machine.execSerStart s
  | .serEdge => Sys2Proof.Machine.execSerEdge s
  | .serComplete => Sys2Proof.Machine.execSerComplete s
  | .pollAdvance => Sys2Proof.Machine.execPollAdvance s
  | .pollFinish => Sys2Proof.Machine.execPollFinish s
  | .pollRestart => Sys2Proof.Machine.execPollRestart s
  | .sampleLatch => Sys2Proof.Machine.execSampleLatch s
  | .arbitrate => Sys2Proof.Machine.execArbitrate s
  | .buildMux => Sys2Proof.Machine.execBuildMux s
  | .buildSer => Sys2Proof.Machine.execBuildSer s
  | .transmit => Sys2Proof.Machine.execTransmit s

end Sys2Proof.Machine
end

