-- ==== Sys2Proof/Machine/Fetch.lean ====
section
/-! DEFINITION. Where a step finds what it runs: a stimulus word given from outside (30_encoding.md R47), or, for an
internal operation, the state that triggers it (R52, logs 4 and 15). -/

namespace Sys2Proof.Machine

/-- The word `w` is given to the machine: it is the next one a step takes. -/
def State.giveWord (s : State) (w : StimWord) : State := { s with inputs := w :: s.inputs }

/-- The word under which nothing but the timers runs: lines released, all else 0. -/
def quietWord : StimWord := encodeStim releasedPins

/-- The released word with EPRDY = 1, TRANSMIT's condition on the inputs (45_idle_transmit_host.md R107). -/
def readyWord : StimWord := encodeStim { releasedPins with epRdy := true }

/-- The trigger column of R52 for the operation, as a change of the state: the operation is due in the next step. -/
def State.withTrigger (s : State) (i : Instr) : State :=
  match i with
  | .idleTick => { s with itCnt := 1 }
  | .wdogExpire => { s with wdArmed := true, wdCnt := 1 }
  | .serGap => { s with serEn := true, scCnt := 1, serPhase := .gap, gapCnt := 1 }
  | .serStart => { s with serEn := true, scCnt := 1, serPhase := .gap, gapCnt := 0 }
  | .serEdge => { s with serEn := true, scCnt := 1, serPhase := .active }
  | .serComplete =>
    { s with serEn := true, scCnt := 1, serPhase := .active, byteIdx := 8, edgeIdx := s.params.eByte - 1 }
  | .pollAdvance => { s with ptEn := true, ptCnt := 1, phase := 0 }
  | .pollFinish => { s with ptEn := true, ptCnt := 1, phase := 7 }
  | .pollRestart => { s with ptEn := true, ptCnt := 1, phase := 8 }
  | .sampleLatch => { s with needSample := true, stCnt := 0, phase := 0 }
  | .arbitrate => { s with mode := .undecided, sampleComplete := true }
  | .buildMux => { s with mode := .mux, sampleComplete := true }
  | .buildSer => { s with mode := .serial, sampleComplete := true }
  | .transmit => { s with mode := .mux, sendPending := true }
  | .step _ | .reset | .getReport | .getIdle | .setIdle _ | .reqUnhandled _ _ => s

/-- The inputs of the step in which that operation is due. -/
def triggerWord (i : Instr) : StimWord :=
  match i with
  | .transmit => readyWord
  | .step _ | .reset | .getReport | .getIdle | .setIdle _ | .reqUnhandled _ _ | .idleTick | .wdogExpire | .serGap
  | .serStart | .serEdge | .serComplete | .pollAdvance | .pollFinish | .pollRestart | .sampleLatch | .arbitrate
  | .buildMux | .buildSer => quietWord

/-- The encoding stands where the next step finds it. -/
def State.withCode (s : State) (c : Code) : State :=
  match c with
  | .stim w => s.giveWord w
  | .event e =>
    match decodeEvent e with
    | .ok i => (s.withTrigger i).giveWord (triggerWord i)
    | .error _ => s

end Sys2Proof.Machine
end

