-- ==== Sys2Proof/Machine/Step.lean ====
section
/-! DEFINITION. One step of the machine: one timebase step (00_scope.md R6, 40_timing_service.md R58). -/

namespace Sys2Proof.Machine

/-- A parameter record that is not legal is refused (00_scope.md R5). Otherwise the next stimulus word is taken and the
operation that it encodes runs: RESET or STEP. -/
def step (s : State) : Host.Outcome State Fault Refusal :=
  if s.params.Legal then exec (decodeTop s.nextWord) s.takeWord else .refused .illegalParams

/-- `s` with an instruction of the opcode table placed so that the next step runs it: a stimulus word is given to the
machine; for an internal operation the state that triggers it is set, and a quiet word given (logs 4 and 15). -/
def State.withFetchWord (s : State) (nbits w : Nat) : State :=
  match tableCode nbits w with
  | some c => s.withCode c
  | none => s

end Sys2Proof.Machine
end

