-- ==== Sys2Proof/Machine/Outputs.lean ====
section
/-! DEFINITION. The output record of a step, read from the state at its end (10_state.md R33, 30_encoding.md R53). -/

namespace Sys2Proof.Machine

/-- A tri-state output: a level, or not driven (R53). -/
inductive Tri where
  | driven (level : Bool)
  | z
  deriving DecidableEq, Repr

/-- The output record of R53. -/
structure Outputs where
  selOut0 : Tri
  selOut1 : Tri
  attOut : Tri
  clkOut : Tri
  cmdOut : Tri
  txValid : Bool
  txData : List Byte
  respKind : BitVec 2
  respLen : Nat
  respData : List Byte
  trace : List Byte
  deriving DecidableEq, Repr

def tri (oe level : Bool) : Tri := if oe then .driven level else .z

/-- NONE = 0, DATA = 1, ACK = 2, UNHANDLED = 3 (R53). -/
def Resp.kind : Resp → BitVec 2
  | .none => 0
  | .data _ => 1
  | .ack => 2
  | .unhandled => 3

/-- The data bytes that the response carries. -/
def Resp.bytes : Resp → List Byte
  | .data bytes => bytes
  | .none | .ack | .unhandled => []

/-- The six bytes of `tx_data`: the report when `tx_valid = 1`, else unspecified (93_implementation_defined.md U7). -/
def State.txData (s : State) : List Byte :=
  match s.tx with
  | some r => r.toList
  | none => (List.range 6).map (Config.freeTxByte s.seq)

/-- The six bytes of `resp_data`: those the response carries, the others unspecified (U8). -/
def State.respData (s : State) : List Byte :=
  (List.range 6).map fun i => (s.resp.bytes[i]?).getD (Config.freeRespByte s.seq i)

/-- The outputs of R33. Both select outputs carry the one level `sel` (10_state.md R15). -/
def State.outputs (s : State) : Outputs where
  selOut0 := tri s.selOe s.sel
  selOut1 := tri s.selOe s.sel
  attOut := tri s.serOe s.att
  clkOut := tri s.serOe s.clk
  cmdOut := tri s.serOe s.cmd
  txValid := s.tx.isSome
  txData := s.txData
  respKind := s.resp.kind
  respLen := s.resp.bytes.length
  respData := s.respData
  trace := s.trace

end Sys2Proof.Machine
end

