-- ==== Sys2Proof/Machine/Registers.lean ====
section
/-! DEFINITION. The control and status registers of 10_state.md R31 as packed views of the state. The bit positions
only name the fields: no rule reads a register as a word and no port exposes one. -/

namespace Sys2Proof.Machine

/-- `mode` as its u2 code (10_state.md R26). -/
def Mode.code : Mode → BitVec 2
  | .undecided => 0
  | .mux => 1
  | .serial => 2
  | .three => 3

/-- `ser_phase` as its u1 code: GAP = 0, ACTIVE = 1 (R19). -/
def SerPhase.code : SerPhase → BitVec 1
  | .gap => 0
  | .active => 1

/-- MODE: `mode` [1:0]. -/
def State.regMode (s : State) : BitVec 2 := s.mode.code

/-- IDLE_RATE: `idle_rate` [7:0]. -/
def State.regIdleRate (s : State) : Byte := s.idleRate

/-- IDLE_STAT: `idle_cnt` [7:0], `idle_elapsed` [8], `send_pending` [9]. -/
def State.regIdleStat (s : State) : BitVec 10 :=
  BitVec.ofBool s.sendPending ++ BitVec.ofBool s.idleElapsed ++ BitVec.ofNat 8 s.idleCnt

/-- POLL_CTRL: `pt_en` [0], `pt_period` [16:1]. -/
def State.regPollCtrl (s : State) : BitVec 17 := BitVec.ofNat 16 s.ptPeriod ++ BitVec.ofBool s.ptEn

/-- MUX_STAT: `phase` [3:0], `need_sample` [4], `sel` [5], `sel_oe` [6]. -/
def State.regMuxStat (s : State) : BitVec 7 :=
  BitVec.ofBool s.selOe ++ BitVec.ofBool s.sel ++ BitVec.ofBool s.needSample ++ BitVec.ofNat 4 s.phase

/-- SER_CTRL: `ser_en` [0], `ser_oe` [1]. -/
def State.regSerCtrl (s : State) : BitVec 2 := BitVec.ofBool s.serOe ++ BitVec.ofBool s.serEn

/-- SER_STAT: `ser_phase` [0], `byte_idx` [4:1], `edge_idx` [12:5], `gap_cnt` [20:13], `att` [21], `clk` [22],
`cmd` [23]. -/
def State.regSerStat (s : State) : BitVec 24 :=
  BitVec.ofBool s.cmd ++ BitVec.ofBool s.clk ++ BitVec.ofBool s.att ++ BitVec.ofNat 8 s.gapCnt ++
    BitVec.ofNat 8 s.edgeIdx ++ BitVec.ofNat 4 s.byteIdx ++ s.serPhase.code

/-- WD_STAT: `wd_armed` [0], `wd_cnt` [16:1]. -/
def State.regWdStat (s : State) : BitVec 17 := BitVec.ofNat 16 s.wdCnt ++ BitVec.ofBool s.wdArmed

/-- FLAGS: `sample_complete` [0]. -/
def State.regFlags (s : State) : BitVec 1 := BitVec.ofBool s.sampleComplete

end Sys2Proof.Machine
end

