-- ==== Sys2Proof/Machine/Script.lean ====
section
/-! DEFINITION. Stimulus scripts: the statements of 30_encoding.md R54, the pseudo-statements of R55 with their
expansions, and what a script does to a machine. A script is the environment's, not the core's: it only gives words
to `step`. -/

namespace Sys2Proof.Machine

/-- The sticky fields of the current input (R54). -/
inductive ScriptField where
  | lines0
  | lines1
  | dat
  | epready
  | hold
  deriving DecidableEq, Repr

/-- The statements of R54 and the pseudo-statements of R55. -/
inductive Stmt where
  /-- `RESET`. -/
  | reset
  /-- `SET f=v, …`. -/
  | set (fields : List (ScriptField × Nat))
  /-- `STEP n`. -/
  | stepN (n : Nat)
  /-- `REQ RAW t r w`. -/
  | reqRaw (t r w : Nat)
  /-- `EXPECT <condition>`, a condition on the state and its outputs. -/
  | expect (condition : State → Bool)
  /-- `REQ GET_REPORT`. -/
  | reqGetReport
  /-- `REQ GET_IDLE`. -/
  | reqGetIdle
  /-- `REQ SET_IDLE n`. -/
  | reqSetIdle (n : Nat)
  /-- `RUN_TO k`. -/
  | runTo (k : Nat)
  /-- `PAD c PRESS <set>`: the lines named are low, the others high. -/
  | padPress (c : Fin 2) (pressed : List (Fin 6))
  /-- `SERPAD b0 … b8`. -/
  | serpad (resp : Vector Byte 9)

/-- The current input record, with the closed-loop pad of SERPAD and the number of the last step run (R54, R55;
00_scope.md R7; log 26). -/
structure ScriptEnv where
  lines0 : Lines
  lines1 : Lines
  dat : Bool
  epready : Bool
  hold : Bool
  serpad : Option (Vector Byte 9)
  last : Nat
  deriving DecidableEq, Repr

/-- The start of a script: lines released, the other sticky fields 0 (R54), and no SERPAD given yet. DESIGN CHOICE (log
26): the number of the last step run is 0 here too. R55 gives it only after RESET, and 00_scope.md R7 numbers steps from
reset only; so a RUN_TO before a script's first RESET counts from the script's start. -/
def ScriptEnv.start : ScriptEnv :=
  { lines0 := 0x3F, lines1 := 0x3F, dat := false, epready := false, hold := false, serpad := none, last := 0 }

/-- Why a script is refused or ends. -/
inductive ScriptError where
  /-- A value does not fit its field (R54; 93_implementation_defined.md U6). -/
  | valueTooWide (v : Nat)
  /-- `RUN_TO k` with k not beyond the last step (R55). -/
  | runToNotAhead (k last : Nat)
  /-- An `EXPECT` that does not hold. -/
  | expectFailed
  /-- The machine has no step: it is faulted, or the parameter record is illegal. -/
  | noStep
  deriving DecidableEq, Repr

/-- `SET` of one sticky field; setting `dat` ends SERPAD (R54, R55). -/
def ScriptEnv.setField (env : ScriptEnv) (f : ScriptField) (v : Nat) : Except ScriptError ScriptEnv :=
  match f with
  | .lines0 => if v < 64 then .ok { env with lines0 := BitVec.ofNat 6 v } else .error (.valueTooWide v)
  | .lines1 => if v < 64 then .ok { env with lines1 := BitVec.ofNat 6 v } else .error (.valueTooWide v)
  | .dat => if v < 2 then .ok { env with dat := v == 1, serpad := none } else .error (.valueTooWide v)
  | .epready => if v < 2 then .ok { env with epready := v == 1 } else .error (.valueTooWide v)
  | .hold => if v < 2 then .ok { env with hold := v == 1 } else .error (.valueTooWide v)

def ScriptEnv.setFields : List (ScriptField × Nat) → ScriptEnv → Except ScriptError ScriptEnv
  | [], env => .ok env
  | (f, v) :: rest, env =>
    match env.setField f v with
    | .ok env' => ScriptEnv.setFields rest env'
    | .error e => .error e

/-- The `dat` level of a step: under SERPAD the pad's answer bit for the position at the start of the step, 1 in the
gap (R55). -/
def ScriptEnv.datAt (env : ScriptEnv) (s : State) : Bool :=
  match env.serpad with
  | none => env.dat
  | some resp =>
    if s.serPhase = .active ∧ s.edgeIdx < 16 then ((resp[s.byteIdx]?).getD 0xFF).getLsbD (s.edgeIdx / 2) else true

/-- The inputs of a step without a request (R54). -/
def ScriptEnv.stim (env : ScriptEnv) (s : State) : Stim :=
  { lines0 := env.lines0, lines1 := env.lines1, dat := env.datAt s, epRdy := env.epready, hold := env.hold,
    reqv := false, rqt := 0, rq := 0, wval := 0 }

/-- One step of the machine on this word. -/
def feed (w : StimWord) (s : State) : Except ScriptError State :=
  match step (s.giveWord w) with
  | .next t => .ok t
  | .fault _ | .refused _ => .error .noStep

/-- `STEP n` (R54). -/
def feedSteps (env : ScriptEnv) : Nat → State → Except ScriptError (ScriptEnv × State)
  | 0, s => .ok (env, s)
  | n + 1, s =>
    match feed (encodeStim (env.stim s)) s with
    | .ok t => feedSteps { env with last := env.last + 1 } n t
    | .error e => .error e

/-- `REQ RAW t r w` (R54). -/
def feedRequest (env : ScriptEnv) (t r w : Nat) (s : State) : Except ScriptError (ScriptEnv × State) :=
  if t < 256 ∧ r < 256 ∧ w < 65536 then
    let st := { env.stim s with
      reqv := true, rqt := BitVec.ofNat 8 t, rq := BitVec.ofNat 8 r, wval := BitVec.ofNat 16 w }
    match feed (encodeStim st) s with
    | .ok u => .ok ({ env with last := env.last + 1 }, u)
    | .error e => .error e
  else .error (.valueTooWide (max t (max r w)))

/-- The lines of `PAD c PRESS <set>` (R55). -/
def padLines (pressed : List (Fin 6)) : Lines :=
  pressed.foldl (fun l i => l &&& ~~~ (1#6 <<< i.val)) 0x3F

/-- One statement (R54, R55). -/
def runStmt (st : Stmt) (env : ScriptEnv) (s : State) : Except ScriptError (ScriptEnv × State) :=
  match st with
  | .reset =>
    match feed 0x0000000000008000 s with
    | .ok t => .ok ({ env with last := 0 }, t)
    | .error e => .error e
  | .set fields =>
    match ScriptEnv.setFields fields env with
    | .ok env' => .ok (env', s)
    | .error e => .error e
  | .stepN n => feedSteps env n s
  | .reqRaw t r w => feedRequest env t r w s
  | .expect condition => if condition s then .ok (env, s) else .error .expectFailed
  | .reqGetReport => feedRequest env 0xA1 0x01 0x0100 s
  | .reqGetIdle => feedRequest env 0xA1 0x02 0x0000 s
  | .reqSetIdle n => feedRequest env 0x21 0x0A (n * 256) s
  | .runTo k => if env.last < k then feedSteps env (k - env.last) s else .error (.runToNotAhead k env.last)
  | .padPress c pressed =>
    if c = 0 then .ok ({ env with lines0 := padLines pressed }, s)
    else .ok ({ env with lines1 := padLines pressed }, s)
  | .serpad resp => .ok ({ env with serpad := some resp }, s)

/-- A script, statement by statement (R54). -/
def runScript : List Stmt → ScriptEnv → State → Except ScriptError (ScriptEnv × State)
  | [], env, s => .ok (env, s)
  | st :: rest, env, s =>
    match runStmt st env s with
    | .ok (env', t) => runScript rest env' t
    | .error e => .error e

end Sys2Proof.Machine
end

