-- ==== Sys2Proof/Safety.lean ====
section
/-! DEFINITION. What a safe state and a safe run are, in the terms of the statements: the legal ranges (10_state.md R14
to R28), the invariants of R34 with the facts that make them inductive, and the runs that never stop. -/

namespace Sys2Proof.Machine

/-- The three legal values of an axis byte (20_memory.md R38). -/
def axisLegal (b : Byte) : Prop := b = 0x00 ∨ b = 0x7F ∨ b = 0xFF

/-- Every counter and index inside its legal range (10_state.md R14 to R28, R34 item 8). -/
structure State.InRange (s : State) : Prop where
  phase : s.phase ≤ 8
  stCnt : s.stCnt ≤ s.params.tSettle
  ptPeriod : s.ptPeriod = s.params.tPoll ∨ s.ptPeriod = s.params.tGap
  ptCntPos : 1 ≤ s.ptCnt
  ptCnt : s.ptCnt ≤ 65535
  gapCnt : s.gapCnt ≤ s.params.txnGap
  byteIdx : s.byteIdx ≤ 8
  edgeIdx : s.edgeIdx < s.params.eByte
  scCntPos : 1 ≤ s.scCnt
  scCnt : s.scCnt ≤ s.params.tHalf
  wdCnt : s.wdCnt ≤ s.params.tWd
  idleCnt : s.idleCnt ≤ 255
  itCntPos : 1 ≤ s.itCnt
  itCnt : s.itCnt ≤ s.params.tIdle

/-- Every counter and index fits the width that 10_state.md gives it (00_scope.md R8). -/
structure State.Fits (s : State) : Prop where
  phase : s.phase < 2 ^ 4
  stCnt : s.stCnt < 2 ^ 16
  ptPeriod : s.ptPeriod < 2 ^ 16
  ptCnt : s.ptCnt < 2 ^ 16
  gapCnt : s.gapCnt < 2 ^ 8
  byteIdx : s.byteIdx < 2 ^ 4
  edgeIdx : s.edgeIdx < 2 ^ 8
  scCnt : s.scCnt < 2 ^ 16
  wdCnt : s.wdCnt < 2 ^ 16
  idleCnt : s.idleCnt < 2 ^ 8
  itCnt : s.itCnt < 2 ^ 16

/-- What holds at the end of every step of a legal run. The first part is R34, item by item; the second part is what
the rules named there rest on. -/
structure State.Inv (s : State) : Prop where
  /-- The parameter record is legal (00_scope.md R5). -/
  legal : s.params.Legal
  /-- No reachable state holds a fault (R30). -/
  noFault : s.fault = none
  /-- `mode` is one of its three legal values (R26). -/
  modeLegal : s.mode ≠ .three
  /-- R34 item 1. -/
  oneEngine : ¬ (s.ptEn = true ∧ s.serEn = true)
  /-- R34 item 2, in four parts. -/
  serEnIff : s.serEn = true ↔ s.mode = .serial
  serOeIff : s.serOe = true ↔ s.mode = .serial
  ptEnIff : s.ptEn = false ↔ s.mode = .serial
  selOeIff : s.selOe = false ↔ s.mode = .serial
  /-- R34 item 3. -/
  consumed : s.sampleComplete = false
  /-- R34 item 4. -/
  gapIdle : s.serPhase = .gap →
    s.byteIdx = 0 ∧ s.edgeIdx = 0 ∧ s.wdArmed = false ∧ s.att = true ∧ s.clk = true ∧ s.cmd = true
  /-- R34 item 5. -/
  activeAtt : s.serPhase = .active → s.att = false ∨ (s.byteIdx = 8 ∧ 18 ≤ s.edgeIdx)
  /-- R34 item 6. -/
  axes : s.mode ≠ .serial → axisLegal s.rpt.x1 ∧ axisLegal s.rpt.y1 ∧ axisLegal s.rpt.x2 ∧ axisLegal s.rpt.y2
  /-- R34 item 7. -/
  latchDue : s.needSample = true → s.phase ≤ 7 ∧ s.stCnt ≤ s.params.tSettle
  /-- R34 item 8. -/
  range : s.InRange
  /-- The latch runs before the next poll tick (70_reset_and_hazards.md R133). -/
  latchInTime : s.needSample = true → s.stCnt + 1 < s.ptCnt
  /-- No latch is due in serial mode (41_mux_engine.md R76). -/
  latchMux : s.needSample = true → s.mode ≠ .serial
  /-- The engine stands at phase 8 in serial mode (R76). -/
  serialPhase : s.mode = .serial → s.phase = 8
  /-- Inside a packet the poll period is T_POLL (R70, R71). -/
  packetPeriod : s.phase ≤ 7 → s.ptPeriod = s.params.tPoll
  /-- The select level of a phase (R74): idle at even phases and at 8, the other level at odd ones. -/
  selectLevel : s.sel = (s.params.selIdle ^^ decide (s.phase % 2 = 1))
  /-- A transaction is in progress in serial mode only, with the watchdog armed (42_serial_engine.md R79). -/
  activeSerial : s.serPhase = .active → s.mode = .serial ∧ s.wdArmed = true
  /-- An armed watchdog has a count to end (R62). -/
  armedCount : s.wdArmed = true → 1 ≤ s.wdCnt
  /-- The idle count stops at the rate (45_idle_transmit_host.md R106). -/
  idleBelowRate : s.idleElapsed = false → s.idleRate ≠ 0 → s.idleCnt < s.idleRate.toNat
  /-- Bits 7 and 6 of every raw byte are 1 (10_state.md R17). -/
  rawHigh : ∀ (c : Fin 2) (p : Fin 8), s.raw[c][p] &&& 0xC0 = 0xC0

/-- A state whose next step stops nothing: no fault in it and a legal parameter record. -/
def State.Safe (s : State) : Prop := s.params.Legal ∧ s.fault = none

/-- A run of any length goes on and meets no fault. -/
def State.RunsSafely (s : State) : Prop := ∀ n, ∃ t, core.run n s = .next t ∧ t.Safe

/-! ## Terms of the statements

Each is written from the spec's tables, not from the model's formulas, so that a statement compares the two. -/

/-- The line k of port c was low at phase p of the raw table: its signal is pressed (41_mux_engine.md R73, R75). -/
def State.pressed (s : State) (c : Fin 2) (p : Fin 8) (k : Nat) : Bool := !(s.readRaw c p).getLsbD k

/-- The button of bit k of a button byte: Z, Y, X, Mode, B, C, Start, A, the first four for a six-button pad only
(44_report_formatter.md R99, R100 and its table). -/
def State.buttonDown (s : State) (c : Fin 2) (k : Fin 8) : Bool :=
  (#v[s.readRaw c 5 != s.readRaw c 3 && s.pressed c 5 0, s.readRaw c 5 != s.readRaw c 3 && s.pressed c 5 1,
      s.readRaw c 5 != s.readRaw c 3 && s.pressed c 5 2, s.readRaw c 5 != s.readRaw c 3 && s.pressed c 5 3,
      s.pressed c 3 4, s.pressed c 3 5, s.pressed c 2 4, s.pressed c 2 5] : Vector Bool 8)[k]

/-- The axis byte of a direction pair, case by case (R98). -/
def directionByte (neg pos : Bool) : Byte :=
  match neg, pos with
  | true, false => 0x00
  | false, true => 0xFF
  | false, false | true, true => 0x7F

/-- The event codes in the order in which one step can emit them, each with its place (40_timing_service.md R58,
60_exceptions.md R121): S1, S2, S3, S4 with SER_COMPLETE after SER_EDGE (42_serial_engine.md R85), S5 to S9. -/
def eventPlaces : List (Byte × Nat) :=
  [(0x40, 1), (0x41, 1), (0x42, 1), (0x4F, 1), (0x20, 2), (0x14, 3), (0x10, 4), (0x11, 4), (0x12, 4), (0x13, 5),
   (0x01, 6), (0x02, 6), (0x03, 6), (0x04, 7), (0x30, 8), (0x31, 9), (0x32, 9), (0x33, 10)]

/-- The place of a code in a step, 0 for a code that no sub-step emits. -/
def eventPlace (c : Byte) : Nat := (eventPlaces.lookup c).getD 0

/-- The reset values of 70_reset_and_hazards.md R130, element by element, with the outputs of the RESET step. -/
structure State.AtReset (p : Params) (s : State) : Prop where
  params : s.params = p
  phase : s.phase = 8
  sel : s.sel = p.selIdle
  selOe : s.selOe = true
  needSample : s.needSample = false
  stCnt : s.stCnt = 0
  raw : ∀ (c : Fin 2) (q : Fin 8), s.readRaw c q = 0xFF
  ptEn : s.ptEn = true
  ptPeriod : s.ptPeriod = p.tPoll
  ptCnt : s.ptCnt = p.tPoll
  serEn : s.serEn = false
  serOe : s.serOe = false
  serPhase : s.serPhase = .gap
  gapCnt : s.gapCnt = 0
  byteIdx : s.byteIdx = 0
  edgeIdx : s.edgeIdx = 0
  acc : ∀ i : Fin 6, s.acc[i] = 0x00
  lines : s.att = true ∧ s.clk = true ∧ s.cmd = true
  scCnt : s.scCnt = p.tHalf
  watchdog : s.wdArmed = false ∧ s.wdCnt = 0
  sampleComplete : s.sampleComplete = false
  mode : s.mode = .undecided
  rpt : s.rpt.toList = [0x7F, 0x7F, 0x7F, 0x7F, 0x00, 0x00]
  idleRate : s.idleRate = p.idleDefault
  idleCnt : s.idleCnt = 0
  idleElapsed : s.idleElapsed = false
  itCnt : s.itCnt = p.tIdle
  sendPending : s.sendPending = false
  fault : s.fault = none
  noReport : s.tx = none
  noAnswer : s.resp = .none
  trace : s.trace = [0xF0]

/-- The steps that the transaction in progress still needs while HOLD = 0: the ticks left, `T_HALF` steps each, the
first of them after `sc_cnt` steps (42_serial_engine.md R84, R89; 70_reset_and_hazards.md R139). -/
def State.transactionLeft (s : State) : Nat :=
  ((8 - s.byteIdx) * s.params.eByte + (s.params.eByte - 1 - s.edgeIdx)) * s.params.tHalf + s.scCnt

/-- The transaction in progress, if any, completes before the watchdog's count ends (R135). -/
def State.InTime (s : State) : Prop := s.serPhase = .active → s.transactionLeft < s.wdCnt

end Sys2Proof.Machine
end

