-- ==== Sys2Proof/Certificates/Slice0/Obligations.lean ====
section
/-! DEFINITION. The statements for the provers, from the numbered rules of the spec. A statement of an operation's
effect gives the next state as `s` with the fields the rule writes: every other field is unchanged, which is its frame,
and the operation completes. The core has no memory beside the three storage spaces (20_memory.md R37). -/

open Sys2Proof Sys2Proof.Machine

/-! ## Encodings (30_encoding.md) -/

/-- Decoding an encoded operation gives it back, with every operand. A STEP that carries a request is encoded by a word
that also matches its request's row; the decoder of the machine's step reads STEP from it (R47, R49, R52). -/
def Obligations.DecodeInvertsEncode : Prop :=
  (∀ i : Instr, i.wellFormed = true → (∀ st, i = .step st → st.reqv = false) → decode (encode i) = .ok i) ∧
  (∀ st : Stim, decodeTop (encodeStim st) = .step st)

/-- Words written out from R47 and R49: RESET, the three honoured requests, an unhandled one, a STEP. -/
def Obligations.SpecWordsDecode : Prop :=
  decode (.stim 0x0000000000008000) = .ok .reset ∧
  decode (.stim 0x00000001A1010000) = .ok .getReport ∧
  decode (.stim 0x00000002A1010000) = .ok .getIdle ∧
  decode (.stim 0x0007000A21010000) = .ok (.setIdle 0x07) ∧
  decode (.stim 0x0002000921010000) = .ok (.reqUnhandled 0x21 0x09) ∧
  decode (.stim 0x0000000000003FBE) = .ok (.step
    { lines0 := 0b111110, lines1 := 0b111110, dat := true, epRdy := true, hold := false, reqv := false, rqt := 0,
      rq := 0, wval := 0 })

/-- The event codes of R52 in format EVT name their operations, and no other code names one. -/
def Obligations.EventCodesNameTheirOperations : Prop :=
  ∀ (c : Byte) (i : Instr), decode (.event c) = .ok i ↔
    (c, i) ∈ [((0x20 : Byte), Instr.idleTick), (0x14, .wdogExpire), (0x10, .serGap), (0x11, .serStart),
      (0x12, .serEdge), (0x13, .serComplete), (0x01, .pollAdvance), (0x02, .pollFinish), (0x03, .pollRestart),
      (0x04, .sampleLatch), (0x30, .arbitrate), (0x31, .buildMux), (0x32, .buildSer), (0x33, .transmit)]

/-- R49 by its match and mask columns: exact match of the pair, the last row for every other request, and no request
without REQV. The SET_IDLE operand is `WVAL[15:8]` (R48). -/
def Obligations.RequestMapMatchesMasks : Prop :=
  ∀ w : StimWord, w.getLsbD 15 = false →
    (w &&& 0x000000FFFF010000 = 0x00000001A1010000 → decode (.stim w) = .ok .getReport) ∧
    (w &&& 0x000000FFFF010000 = 0x00000002A1010000 → decode (.stim w) = .ok .getIdle) ∧
    (w &&& 0x000000FFFF010000 = 0x0000000A21010000 → decode (.stim w) = .ok (.setIdle (w.extractLsb' 48 8))) ∧
    (w &&& 0x0000000000010000 = 0x0000000000010000 → w &&& 0x000000FFFF010000 ≠ 0x00000001A1010000 →
      w &&& 0x000000FFFF010000 ≠ 0x00000002A1010000 → w &&& 0x000000FFFF010000 ≠ 0x0000000A21010000 →
      decode (.stim w) = .ok (.reqUnhandled (w.extractLsb' 24 8) (w.extractLsb' 32 8))) ∧
    (w &&& 0x0000000000010000 = 0 → decode (.stim w) = .ok (.step (decodeStim w)))

/-- R50: a word with reserved bits set behaves exactly as the same word with them clear. -/
def Obligations.ReservedBitsChangeNothing : Prop :=
  ∀ (w w' : StimWord) (s : State), w &&& 0x00FFFFFFFF01FFFF = w' &&& 0x00FFFFFFFF01FFFF →
    step (s.giveWord w) = step (s.giveWord w') ∧ decode (.stim w) = decode (.stim w')

/-- R51: with REQV = 0 the sub-step S1 does nothing, the request fields are ignored and no answer is given; with RST = 1
every other field is ignored. -/
def Obligations.FieldsWithoutRequestIgnored : Prop :=
  (∀ s : State, s.pins.reqv = false → subRequest s = s) ∧
  (∀ (s t : State) (st : Stim) (rqt rq : Byte) (wval : BitVec 16), st.reqv = false → exec (.step st) s = .next t →
    t.resp = .none ∧
    exec (.step { st with rqt := rqt, rq := rq, wval := wval }) s =
      .next { t with pins := { st with rqt := rqt, rq := rq, wval := wval } }) ∧
  (∀ (s : State) (w w' : StimWord), w.getLsbD 15 = true → w'.getLsbD 15 = true →
    step (s.giveWord w) = step (s.giveWord w'))

/-! ## The step (40_timing_service.md) -/

/-- A step of a legal machine runs the operation that its word encodes, RESET or STEP, the word taken first: the
oldest word given, or the environment's free draw (R58; 10_state.md R36; how the words stand in the state is log 4). -/
def Obligations.StepRunsTheDecodedOperation : Prop :=
  ∀ s : State, s.params.Legal →
    (∀ w ws, s.inputs = w :: ws → step s = exec (decodeTop w) { s with inputs := ws, seq := s.seq + 1 }) ∧
    (s.inputs = [] → step s = exec (decodeTop (Config.freeStim s.seq)) { s with seq := s.seq + 1 })

/-- STEP completes from every state without a fault: the step's outputs begin empty, S1 runs the request's operation
where there is one, and S2 to S9 follow, in their order and each on what the one before left where the invariant holds
(R58; 30_encoding.md R49). -/
def Obligations.StepRunsSubStepsInOrder : Prop :=
  ∀ (s : State) (st : Stim), s.fault = none →
    ∃ t, t.fault = none ∧
      (st.reqv = false → t = { s with pins := st, trace := [], tx := none, resp := .none }) ∧
      (st.reqv = true →
        exec st.request.toInstr { s with pins := st, trace := [], tx := none, resp := .none } = .next t) ∧
      exec (.step st) s = .next (afterRequest t) ∧
      (s.Inv → afterRequest t =
        subTransmit (subBuild (subArbitrate (subSettle (subPollTimer (subSerialTimer (subWatchdog
          (subIdleTimer t))))))))

/-- 00_scope.md R5: a record that breaks one of the six rules has no step, and a legal one is never refused. -/
def Obligations.IllegalParametersRefused : Prop :=
  ∀ s : State, step s = .refused .illegalParams ↔
    ¬ (s.params.tSettle < s.params.tPoll ∧ 18 ≤ s.params.eByte ∧
      9 * s.params.eByte * s.params.tHalf < s.params.tWd ∧ s.params.chordMask ≠ 0 ∧
      (∀ i j : Fin 6, s.params.serialPerm.src[i] = s.params.serialPerm.src[j] → i = j) ∧
      1 ≤ s.params.tbHz ∧ 1 ≤ s.params.tPoll ∧ s.params.tPoll ≤ 65535 ∧ 1 ≤ s.params.tGap ∧
      s.params.tGap ≤ 65535 ∧ s.params.tSettle ≤ 65535 ∧ 1 ≤ s.params.tHalf ∧ s.params.tHalf ≤ 65535 ∧
      s.params.eByte ≤ 255 ∧ s.params.txnGap ≤ 255 ∧ 1 ≤ s.params.tWd ∧ s.params.tWd ≤ 65535 ∧
      1 ≤ s.params.tIdle ∧ s.params.tIdle ≤ 65535)

/-- R59 and 70_reset_and_hazards.md R129, R130: RESET, from any state and through a word with RST = 1, leaves every
element at its reset value, and the outputs of that state. -/
def Obligations.ResetSetsEveryElement : Prop :=
  (∀ s : State, ∃ t, exec .reset s = .next t ∧ t.AtReset s.params ∧
    t.outputs.selOut0 = .driven s.params.selIdle ∧ t.outputs.selOut1 = .driven s.params.selIdle ∧
    t.outputs.attOut = .z ∧ t.outputs.clkOut = .z ∧ t.outputs.cmdOut = .z ∧ t.outputs.txValid = false ∧
    t.outputs.respKind = 0) ∧
  (∀ (s : State) (w : StimWord), s.params.Legal → w.getLsbD 15 = true →
    ∃ t, step (s.giveWord w) = .next t ∧ t.AtReset s.params) ∧
  State.reset.AtReset Params.default

/-- 10_state.md R30: a state with a fault set takes no further step, and only RESET clears the fault. -/
def Obligations.FaultedStateTakesNoStep : Prop :=
  ∀ (s : State) (r : Fault), s.fault = some r →
    (∀ i : Instr, i ≠ .reset → exec i s = .fault r) ∧ ∃ t, exec .reset s = .next t ∧ t.fault = none

/-- R60 with R61, R63, R64 and the dispatches R68, R77: each periodic timer holds while disabled, counts down by one
while enabled, and at 1 runs its handler and reloads, the poll timer with the period as the handler left it. -/
def Obligations.PeriodicTimersCountAndFire : Prop :=
  ∀ s : State, s.fault = none → s.params.Legal → s.InRange →
    (s.itCnt ≠ 1 → subIdleTimer s = { s with itCnt := s.itCnt - 1 }) ∧
    (s.itCnt = 1 → ∃ t, exec .idleTick s = .next t ∧
      (t.fault = none → subIdleTimer s = { t with itCnt := s.params.tIdle })) ∧
    (s.serEn = false ∨ s.pins.hold = true → subSerialTimer s = s) ∧
    (s.serEn = true → s.pins.hold = false →
      (s.scCnt ≠ 1 → subSerialTimer s = { s with scCnt := s.scCnt - 1 }) ∧
      (s.scCnt = 1 → ∃ t,
        exec (if s.serPhase = .active then .serEdge else if 0 < s.gapCnt then .serGap else .serStart) s = .next t ∧
        t.fault = none ∧ subSerialTimer s = { t with scCnt := s.params.tHalf })) ∧
    (s.ptEn = false → subPollTimer s = s) ∧
    (s.ptEn = true →
      (s.ptCnt ≠ 1 → subPollTimer s = { s with ptCnt := s.ptCnt - 1 }) ∧
      (s.ptCnt = 1 → ∃ t,
        exec (if s.phase ≤ 6 then .pollAdvance else if s.phase = 7 then .pollFinish else .pollRestart) s = .next t ∧
        t.fault = none ∧ subPollTimer s = { t with ptCnt := t.ptPeriod }))

/-- R62 and R65: the watchdog and the settle delay, one-shot counters, and the triggers of S7, S8 and S9 (R58;
30_encoding.md R52): the operation runs exactly when its trigger holds. -/
def Obligations.TriggersSelectTheOperations : Prop :=
  ∀ s : State, s.fault = none → s.InRange → s.mode ≠ .three →
    (s.wdArmed = false → subWatchdog s = s) ∧
    (s.wdArmed = true → s.wdCnt = 1 → exec .wdogExpire s = .next (subWatchdog s)) ∧
    (s.wdArmed = true → 1 < s.wdCnt → subWatchdog s = { s with wdCnt := s.wdCnt - 1 }) ∧
    (s.needSample = false → subSettle s = s) ∧
    (s.needSample = true → s.stCnt = 0 → exec .sampleLatch s = .next (subSettle s)) ∧
    (s.needSample = true → 0 < s.stCnt → subSettle s = { s with stCnt := s.stCnt - 1 }) ∧
    (s.mode = .undecided ∧ s.sampleComplete = true → exec .arbitrate s = .next (subArbitrate s)) ∧
    (¬ (s.mode = .undecided ∧ s.sampleComplete = true) → subArbitrate s = s) ∧
    (s.sampleComplete = true ∧ s.mode = .mux → exec .buildMux s = .next (subBuild s)) ∧
    (s.sampleComplete = true ∧ s.mode = .serial → exec .buildSer s = .next (subBuild s)) ∧
    (s.sampleComplete = false ∨ s.mode = .undecided → subBuild s = s) ∧
    (s.mode ≠ .undecided ∧ s.pins.epRdy = true ∧ (s.sendPending = true ∨ s.idleElapsed = true) →
      exec .transmit s = .next (subTransmit s)) ∧
    (¬ (s.mode ≠ .undecided ∧ s.pins.epRdy = true ∧ (s.sendPending = true ∨ s.idleElapsed = true)) →
      subTransmit s = s)

/-- R58 and 60_exceptions.md R121: whatever runs in a step runs in sub-step order, each place of the order at most
once. -/
def Obligations.EventsFollowSubStepOrder : Prop :=
  ∀ (s t : State) (st : Stim), exec (.step st) s = .next t →
    t.trace.Pairwise (fun a b => eventPlace a < eventPlace b) ∧ ∀ c ∈ t.trace, 0 < eventPlace c

/-! ## Multiplexed-Pad Engine (41_mux_engine.md) -/

/-- R69. -/
def Obligations.PollAdvanceTogglesSelect : Prop :=
  ∀ s : State, s.fault = none → s.phase ≤ 6 →
    exec .pollAdvance s = .next { s with
      sel := !s.sel, phase := s.phase + 1, needSample := true, stCnt := s.params.tSettle
      trace := s.trace ++ [0x01] }

/-- R70. -/
def Obligations.PollFinishCompletesThePacket : Prop :=
  ∀ s : State, s.fault = none →
    exec .pollFinish s = .next { s with
      sel := s.params.selIdle, ptPeriod := s.params.tGap, phase := 8, sampleComplete := true
      trace := s.trace ++ [0x02] }

/-- R71. -/
def Obligations.PollRestartBeginsAPacket : Prop :=
  ∀ s : State, s.fault = none →
    exec .pollRestart s = .next { s with
      ptPeriod := s.params.tPoll, phase := 0, needSample := true, stCnt := s.params.tSettle
      trace := s.trace ++ [0x03] }

/-- R72, R73: both ports' lines of this step at index `phase`, bits 7 and 6 as 1; every other entry as before. -/
def Obligations.SampleLatchStoresBothPorts : Prop :=
  ∀ (s : State) (p : Fin 8), s.fault = none → s.phase = p.val →
    ∃ t, exec .sampleLatch s = .next t ∧
      t = { s with raw := t.raw, needSample := false, trace := s.trace ++ [0x04] } ∧
      t.readRaw 0 p = 0b11#2 ++ s.pins.lines0 ∧ t.readRaw 1 p = 0b11#2 ++ s.pins.lines1 ∧
      ∀ (c : Fin 2) (q : Fin 8), q ≠ p → t.readRaw c q = s.readRaw c q

/-! ## Serial-Pad Engine (42_serial_engine.md) -/

/-- R78. -/
def Obligations.SerialGapCountsDown : Prop :=
  ∀ s : State, s.fault = none → 0 < s.gapCnt → s.gapCnt ≤ s.params.txnGap →
    exec .serGap s = .next { s with gapCnt := s.gapCnt - 1, trace := s.trace ++ [0x10] }

/-- R79. -/
def Obligations.SerialStartAssertsAttention : Prop :=
  ∀ s : State, s.fault = none →
    exec .serStart s = .next { s with
      acc := Vector.replicate 6 0x00, byteIdx := 0, edgeIdx := 0, att := false, serPhase := .active
      wdArmed := true, wdCnt := s.params.tWd, trace := s.trace ++ [0x11] }

/-- R80 to R84 for every edge but a transaction's last: the clock, the response bit into slot b − 3, data-out from the
command pattern of R87, the release of attention, and the advance to the next edge or byte. -/
def Obligations.SerialEdgeActsAndAdvances : Prop :=
  ∀ s : State, s.fault = none → s.byteIdx ≤ 8 → s.edgeIdx < s.params.eByte →
    ¬ (s.byteIdx = 8 ∧ s.edgeIdx + 1 = s.params.eByte) →
    ∃ t, exec .serEdge s = .next t ∧
      t = { s with
        clk := t.clk, acc := t.acc, cmd := t.cmd, att := t.att, byteIdx := t.byteIdx, edgeIdx := t.edgeIdx
        trace := s.trace ++ [0x12] } ∧
      (t.clk = if s.edgeIdx < 16 then decide (s.edgeIdx % 2 = 1) else s.clk) ∧
      (∀ i : Fin 6, t.acc[i] =
        if s.edgeIdx < 16 ∧ s.edgeIdx % 2 = 1 ∧ s.byteIdx = i.val + 3 then
          (s.acc[i] >>> 1) ||| (if s.pins.dat then 0x80 else 0x00)
        else s.acc[i]) ∧
      (t.cmd =
        if s.edgeIdx < 16 ∧ s.edgeIdx % 2 = 0 then
          (([0x01, 0x42, 0xFF, 0xFF, 0xFF, 0xFF, 0xFF, 0xFF, 0xFF] : List Byte).getD s.byteIdx 0).getLsbD
            (s.edgeIdx / 2)
        else if s.edgeIdx = 16 then true else s.cmd) ∧
      (t.att = if s.byteIdx = 8 ∧ s.edgeIdx = 17 then true else s.att) ∧
      (t.byteIdx = if s.edgeIdx + 1 = s.params.eByte then s.byteIdx + 1 else s.byteIdx) ∧
      (t.edgeIdx = if s.edgeIdx + 1 = s.params.eByte then 0 else s.edgeIdx + 1)

/-- R84, R85: the last edge of byte 8, which lies in the inter-byte gap, completes the transaction and keeps the
accumulator. -/
def Obligations.SerialLastEdgeCompletes : Prop :=
  ∀ s : State, s.fault = none → 18 ≤ s.params.eByte → s.byteIdx = 8 → s.edgeIdx + 1 = s.params.eByte →
    exec .serEdge s = .next { s with
      byteIdx := 0, edgeIdx := 0, clk := true, att := true, cmd := true, serPhase := .gap
      gapCnt := s.params.txnGap, wdArmed := false, wdCnt := 0, sampleComplete := true
      trace := s.trace ++ [0x12, 0x13] }

/-- R85. -/
def Obligations.SerialCompleteMarksTheSet : Prop :=
  ∀ s : State, s.fault = none →
    exec .serComplete s = .next { s with
      byteIdx := 0, edgeIdx := 0, clk := true, att := true, cmd := true, serPhase := .gap
      gapCnt := s.params.txnGap, wdArmed := false, wdCnt := 0, sampleComplete := true
      trace := s.trace ++ [0x13] }

/-- R86: as a completion, but with the accumulator cleared and no sample set marked. -/
def Obligations.WatchdogExpiryAbandonsTheTransaction : Prop :=
  ∀ s : State, s.fault = none →
    exec .wdogExpire s = .next { s with
      acc := Vector.replicate 6 0x00, byteIdx := 0, edgeIdx := 0, clk := true, att := true, cmd := true
      serPhase := .gap, gapCnt := s.params.txnGap, wdArmed := false, wdCnt := 0
      trace := s.trace ++ [0x14] }

/-- R81: eight shifts, whatever the slot held before, leave the k-th response bit at bit k. -/
def Obligations.ResponseBitsAssembleLsbFirst : Prop :=
  ∀ (v : Byte) (bits : Vector Bool 8) (k : Fin 8), (bits.toList.foldl shiftIn v).getLsbD k = bits[k]

/-! ## Mode Arbitrator (43_mode_arbiter.md) -/

/-- R90 to R95: serial mode for the marker without the chord, with everything SELECT_SERIAL writes; else multiplexed
mode and nothing more. -/
def Obligations.ArbitrateFollowsTheDecisionTable : Prop :=
  ∀ s : State, s.fault = none →
    ((∀ k : Fin 8, s.params.chordMask.getLsbD k = true → s.buttonDown 1 k = true) ∨
        s.readRaw 0 7 ≠ s.params.serialMarker →
      exec .arbitrate s = .next { s with mode := .mux, trace := s.trace ++ [0x30] }) ∧
    (¬ (∀ k : Fin 8, s.params.chordMask.getLsbD k = true → s.buttonDown 1 k = true) →
        s.readRaw 0 7 = s.params.serialMarker →
      exec .arbitrate s = .next { s with
        mode := .serial, ptEn := false, selOe := false, needSample := false, sampleComplete := false
        serEn := true, scCnt := s.params.tHalf, serOe := true, att := true, clk := true, cmd := true
        serPhase := .gap, gapCnt := s.params.txnGap, byteIdx := 0, edgeIdx := 0
        acc := Vector.replicate 6 0x00, wdArmed := false, wdCnt := 0, trace := s.trace ++ [0x30] })

/-- R96: a decided mode stays, step after step, until RESET; and ARBITRATE runs exactly in the step that decides. -/
def Obligations.ModeIsDecidedOnce : Prop :=
  (∀ (n : Nat) (s t : State), s.mode ≠ .undecided → n ≤ s.inputs.length →
    (∀ w ∈ s.inputs, w.getLsbD 15 = false) → core.run n s = .next t → t.mode = s.mode) ∧
  (∀ (s t : State) (st : Stim), s.mode ≠ .three → exec (.step st) s = .next t →
    (0x30 ∈ t.trace ↔ s.mode = .undecided ∧ t.mode ≠ .undecided))

/-! ## Report Builder (44_report_formatter.md) -/

/-- R97 to R101 with R103, R104: the report that the raw table gives, byte by byte and button by button; the change
noted, the set consumed, nothing else written. -/
def Obligations.BuildMuxDecodesTheRawTable : Prop :=
  ∀ s : State, s.fault = none →
    ∃ t, exec .buildMux s = .next t ∧
      t = { s with
        rpt := t.rpt, sampleComplete := false, sendPending := s.sendPending || decide (t.rpt ≠ s.rpt)
        trace := s.trace ++ [0x31] } ∧
      t.rpt.x1 = directionByte (s.pressed 0 3 2) (s.pressed 0 3 3) ∧
      t.rpt.y1 = directionByte (s.pressed 0 3 0) (s.pressed 0 3 1) ∧
      t.rpt.x2 = directionByte (s.pressed 1 3 2) (s.pressed 1 3 3) ∧
      t.rpt.y2 = directionByte (s.pressed 1 3 0) (s.pressed 1 3 1) ∧
      (∀ k : Fin 8, t.rpt.buttons1.getLsbD k = s.buttonDown 0 k) ∧
      (∀ k : Fin 8, t.rpt.buttons2.getLsbD k = s.buttonDown 1 k)

/-- R102 with R103, R104: the accumulator through `SERIAL_PERM`, and the default permutation written out. -/
def Obligations.BuildSerPermutesTheAccumulator : Prop :=
  ∀ s : State, s.fault = none →
    ∃ t, exec .buildSer s = .next t ∧
      t = { s with
        rpt := t.rpt, sampleComplete := false, sendPending := s.sendPending || decide (t.rpt ≠ s.rpt)
        trace := s.trace ++ [0x32] } ∧
      (∀ i : Fin 6, t.rpt.toList[i.val]? = some
        (if s.params.serialPerm.inv[i] = true then ~~~ s.acc[s.params.serialPerm.src[i]]
          else s.acc[s.params.serialPerm.src[i]])) ∧
      (s.params.serialPerm = Params.default.serialPerm →
        t.rpt.toList = [s.acc[4], s.acc[5], s.acc[2], s.acc[3], ~~~ s.acc[0], ~~~ s.acc[1]])

/-- R105: three-valued axes, the centered tie, the released pad, and idempotence of both builds. -/
def Obligations.FormatterProperties : Prop :=
  (∀ s t : State, exec .buildMux s = .next t →
    axisLegal t.rpt.x1 ∧ axisLegal t.rpt.y1 ∧ axisLegal t.rpt.x2 ∧ axisLegal t.rpt.y2 ∧
    (s.pressed 0 3 2 = s.pressed 0 3 3 → t.rpt.x1 = 0x7F) ∧ (s.pressed 0 3 0 = s.pressed 0 3 1 → t.rpt.y1 = 0x7F) ∧
    (s.pressed 1 3 2 = s.pressed 1 3 3 → t.rpt.x2 = 0x7F) ∧ (s.pressed 1 3 0 = s.pressed 1 3 1 → t.rpt.y2 = 0x7F) ∧
    ((∀ (c : Fin 2) (p : Fin 8), s.readRaw c p = 0xFF) → t.rpt.toList = [0x7F, 0x7F, 0x7F, 0x7F, 0x00, 0x00]) ∧
    ∃ u, exec .buildMux t = .next u ∧ u.rpt = t.rpt ∧ u.sendPending = t.sendPending) ∧
  (∀ s t : State, exec .buildSer s = .next t →
    (s.params.serialPerm = Params.default.serialPerm → s.acc = Vector.replicate 6 0xFF →
      t.rpt.toList = [0xFF, 0xFF, 0xFF, 0xFF, 0x00, 0x00]) ∧
    ∃ u, exec .buildSer t = .next u ∧ u.rpt = t.rpt ∧ u.sendPending = t.sendPending)

/-- R104: no step without a fault ends with a sample set still marked. -/
def Obligations.SampleSetConsumedInItsStep : Prop :=
  ∀ (s t : State) (st : Stim), exec (.step st) s = .next t → t.fault = none → t.sampleComplete = false

/-! ## Idle/Transmit Scheduler and host requests (45_idle_transmit_host.md) -/

/-- R106: the tick counts while the rate is not 0 and nothing has elapsed, and elapses at the rate; otherwise it
changes nothing. -/
def Obligations.IdleTickCountsToTheRate : Prop :=
  ∀ s : State, s.fault = none →
    (s.idleRate ≠ 0 → s.idleElapsed = false → s.idleCnt < 255 →
      exec .idleTick s = .next { s with
        idleCnt := s.idleCnt + 1, idleElapsed := decide (s.idleRate.toNat ≤ s.idleCnt + 1)
        trace := s.trace ++ [0x20] }) ∧
    (s.idleRate = 0 ∨ s.idleElapsed = true → exec .idleTick s = .next { s with trace := s.trace ++ [0x20] })

/-- R107: the report handed over byte 0 first, both causes cleared, the idle timer re-armed. -/
def Obligations.TransmitHandsOverTheReport : Prop :=
  ∀ s : State, s.fault = none →
    ∃ t, exec .transmit s = .next t ∧
      t = { s with
        tx := some s.rpt, sendPending := false, idleElapsed := false, idleCnt := 0, itCnt := s.params.tIdle
        trace := s.trace ++ [0x33] } ∧
      t.outputs.txValid = true ∧
      t.outputs.txData = [s.rpt.x1, s.rpt.y1, s.rpt.x2, s.rpt.y2, s.rpt.buttons1, s.rpt.buttons2]

/-- R108, R109: the report's six bytes, and the idle rate; neither read changes anything but the answer. -/
def Obligations.GetRequestsAnswerWithData : Prop :=
  ∀ s : State, s.fault = none →
    (∃ t, exec .getReport s = .next t ∧
      t = { s with resp := .data s.rpt.toList, trace := s.trace ++ [0x40] } ∧
      t.outputs.respKind = 1 ∧ t.outputs.respLen = 6 ∧
      t.outputs.respData = [s.rpt.x1, s.rpt.y1, s.rpt.x2, s.rpt.y2, s.rpt.buttons1, s.rpt.buttons2]) ∧
    (∃ t, exec .getIdle s = .next t ∧
      t = { s with resp := .data [s.idleRate], trace := s.trace ++ [0x41] } ∧
      t.outputs.respKind = 1 ∧ t.outputs.respLen = 1 ∧ t.outputs.respData[0]? = some s.idleRate)

/-- R110: every rate is stored as it is, 0 as 0, and the count starts again. -/
def Obligations.SetIdleStoresTheRate : Prop :=
  ∀ (s : State) (rate : Byte), s.fault = none →
    ∃ t, exec (.setIdle rate) s = .next t ∧
      t = { s with
        idleRate := rate, idleCnt := 0, idleElapsed := false, resp := .ack, trace := s.trace ++ [0x42] } ∧
      t.outputs.respKind = 2 ∧ t.outputs.respLen = 0

/-- R111: the answer UNHANDLED and nothing else. -/
def Obligations.UnhandledRequestOnlyAnswers : Prop :=
  ∀ (s : State) (rqt rq : Byte), s.fault = none →
    ∃ t, exec (.reqUnhandled rqt rq) s = .next t ∧
      t = { s with resp := .unhandled, trace := s.trace ++ [0x4F] } ∧
      t.outputs.respKind = 3 ∧ t.outputs.respLen = 0

/-- R58 (S1 before S8) and 60_exceptions.md R121 item 5: the answer of a step is made from the state that the previous
step left. -/
def Obligations.AnswersComeFromThePreviousStep : Prop :=
  ∀ (s t : State) (st : Stim), exec (.step st) s = .next t →
    t.resp =
      if st.reqv = false then .none
      else if st.rqt = 0xA1 ∧ st.rq = 0x01 then .data s.rpt.toList
      else if st.rqt = 0xA1 ∧ st.rq = 0x02 then .data [s.idleRate]
      else if st.rqt = 0x21 ∧ st.rq = 0x0A then .ack
      else .unhandled

/-- R107 and R103 seen from the end of a step. A report is sent exactly when the mode is decided, the endpoint is ready
and there is a cause: a change pending from before or made by this step's build, an idle elapse that waited (a SET_IDLE of
this step drops it, R110), or one that this step's idle tick makes (R106). What is sent is the report held, and it clears
both causes; at a ready endpoint in a decided mode nothing due stays unsent; a changed report is sent or pending. -/
def Obligations.TransmitExactlyWhenDue : Prop :=
  ∀ (s t : State) (st : Stim), exec (.step st) s = .next t → t.fault = none →
    ((∃ r, t.tx = some r) ↔ t.mode ≠ .undecided ∧ st.epRdy = true ∧
      (s.sendPending = true ∨ t.rpt ≠ s.rpt ∨
        (s.idleElapsed = true ∧ ¬ (st.reqv = true ∧ st.rqt = 0x21 ∧ st.rq = 0x0A)) ∨
        (s.itCnt = 1 ∧ t.idleRate ≠ 0 ∧
          t.idleRate.toNat ≤ (if st.reqv = true ∧ st.rqt = 0x21 ∧ st.rq = 0x0A then 0 else s.idleCnt) + 1))) ∧
    (∀ r, t.tx = some r → r = t.rpt ∧ 0x33 ∈ t.trace ∧ t.sendPending = false ∧ t.idleElapsed = false ∧
      t.idleCnt = 0 ∧ t.itCnt = t.params.tIdle) ∧
    (t.mode ≠ .undecided → st.epRdy = true → t.sendPending = false ∧ t.idleElapsed = false) ∧
    (t.rpt ≠ s.rpt → t.sendPending = true ∨ t.tx = some t.rpt)

/-- R113 item 1: at rate 0 with nothing due, a step that takes no SET_IDLE and keeps the report sends nothing, and
leaves a state of the same kind: so no later step sends either. -/
def Obligations.ZeroRateNeverResends : Prop :=
  ∀ (s t : State) (st : Stim), exec (.step st) s = .next t → s.idleRate = 0 → s.idleElapsed = false →
    s.sendPending = false → (st.reqv = true → ¬ (st.rqt = 0x21 ∧ st.rq = 0x0A)) → t.rpt = s.rpt →
    t.tx = none ∧ t.idleRate = 0 ∧ t.idleElapsed = false ∧ t.sendPending = false

/-- R113 item 2: after a send at rate N > 0, with the endpoint ready, no request and no change of the report, nothing
is sent for N·T_IDLE − 1 steps, and the report is sent at step N·T_IDLE. -/
def Obligations.ResendAfterRateTicks : Prop :=
  ∀ s : State, s.Inv → s.mode ≠ .undecided → s.idleRate ≠ 0 → s.idleCnt = 0 → s.idleElapsed = false →
    s.itCnt = s.params.tIdle → s.sendPending = false →
    s.inputs.length = s.idleRate.toNat * s.params.tIdle →
    (∀ w ∈ s.inputs, w.getLsbD 15 = false ∧ w.getLsbD 16 = false ∧ w.getLsbD 13 = true) →
    (∀ k u, k ≤ s.idleRate.toNat * s.params.tIdle → core.run k s = .next u → u.rpt = s.rpt) →
    (∀ k u, 0 < k → k < s.idleRate.toNat * s.params.tIdle → core.run k s = .next u → u.tx = none) ∧
    ∃ u, core.run (s.idleRate.toNat * s.params.tIdle) s = .next u ∧ u.tx = some s.rpt

/-! ## Model faults (60_exceptions.md) -/

/-- R119 with R10, R26, R68, R72: where a tick, a latch, S7 or a serial edge meets a value out of range the model holds the
fault. STATE_RANGE: `phase` at a poll tick (R68) and at a latch (R72), `mode` = 3 (R26; that S7 finds it is log 13).
COUNTER_RANGE (R10), at both ends of each counter's range (log 11): the counts of R60 (idle timer R61, serial timer R63,
poll timer R64), R62 (a watchdog armed at count 0 too: log 24, against vector S16), R65, R78 and R106, and the indices of
SER_EDGE at its entry (log 12). Nothing else of the operation happens but what it had emitted (log 10). -/
def Obligations.OutOfRangeStatesFault : Prop :=
  ∀ s : State, s.fault = none →
    (8 < s.phase → s.ptEn = true → s.ptCnt = 1 → subPollTimer s = { s with fault := some .stateRange }) ∧
    (7 < s.phase → exec .sampleLatch s = .next { s with fault := some .stateRange }) ∧
    (s.mode = .three → subArbitrate s = { s with fault := some .stateRange }) ∧
    (s.itCnt = 0 ∨ s.params.tIdle + 1 < s.itCnt → subIdleTimer s = { s with fault := some .counterRange }) ∧
    (s.wdArmed = true → s.wdCnt = 0 ∨ s.params.tWd + 1 < s.wdCnt →
      subWatchdog s = { s with fault := some .counterRange }) ∧
    (s.serEn = true → s.pins.hold = false → s.scCnt = 0 ∨ s.params.tHalf + 1 < s.scCnt →
      subSerialTimer s = { s with fault := some .counterRange }) ∧
    (s.ptEn = true → s.ptCnt = 0 ∨ 65536 < s.ptCnt → subPollTimer s = { s with fault := some .counterRange }) ∧
    (s.needSample = true → s.params.tSettle + 1 < s.stCnt → subSettle s = { s with fault := some .counterRange }) ∧
    (s.gapCnt = 0 ∨ s.params.txnGap + 1 < s.gapCnt →
      exec .serGap s = .next { s with fault := some .counterRange }) ∧
    (8 < s.byteIdx ∨ s.params.eByte ≤ s.edgeIdx → exec .serEdge s = .next { s with fault := some .counterRange }) ∧
    (s.idleRate ≠ 0 → s.idleElapsed = false → 255 ≤ s.idleCnt →
      exec .idleTick s = .next { s with fault := some .counterRange, trace := s.trace ++ [0x20] })

/-! ## The whole machine -/

/-- 20_memory.md R46, row by row, with R37 and the "written by" of 10_state.md R14 to R29: what changes in a step was
changed by its writer. The codes name the operations that ran (30_encoding.md R52); a timer's count also changes by the
Timing Service's countdown, by one and only while it is enabled (R46's last row; R61 to R65). -/
def Obligations.EveryElementHasItsWriter : Prop :=
  ∀ (s t : State) (st : Stim), exec (.step st) s = .next t →
    -- Multiplexed-Pad Engine
    (t.raw ≠ s.raw → 0x04 ∈ t.trace) ∧
    (t.phase ≠ s.phase → 0x01 ∈ t.trace ∨ 0x02 ∈ t.trace ∨ 0x03 ∈ t.trace) ∧
    (t.sel ≠ s.sel → 0x01 ∈ t.trace ∨ 0x02 ∈ t.trace) ∧
    (s.needSample = false → t.needSample = true → 0x01 ∈ t.trace ∨ 0x03 ∈ t.trace) ∧
    (s.needSample = true → t.needSample = false → 0x04 ∈ t.trace ∨ 0x30 ∈ t.trace) ∧
    (t.stCnt ≠ s.stCnt → 0x01 ∈ t.trace ∨ 0x03 ∈ t.trace ∨ (s.needSample = true ∧ t.stCnt + 1 = s.stCnt)) ∧
    (t.ptPeriod ≠ s.ptPeriod → 0x02 ∈ t.trace ∨ 0x03 ∈ t.trace) ∧
    (t.ptCnt ≠ s.ptCnt →
      0x01 ∈ t.trace ∨ 0x02 ∈ t.trace ∨ 0x03 ∈ t.trace ∨ (s.ptEn = true ∧ t.ptCnt + 1 = s.ptCnt)) ∧
    -- Serial-Pad Engine and its watchdog, and the arbitrator's start of them
    (t.acc ≠ s.acc → 0x11 ∈ t.trace ∨ 0x12 ∈ t.trace ∨ 0x14 ∈ t.trace ∨ 0x30 ∈ t.trace) ∧
    (t.byteIdx ≠ s.byteIdx ∨ t.edgeIdx ≠ s.edgeIdx →
      0x11 ∈ t.trace ∨ 0x12 ∈ t.trace ∨ 0x14 ∈ t.trace ∨ 0x30 ∈ t.trace) ∧
    (t.serPhase ≠ s.serPhase → 0x11 ∈ t.trace ∨ 0x13 ∈ t.trace ∨ 0x14 ∈ t.trace ∨ 0x30 ∈ t.trace) ∧
    (t.gapCnt ≠ s.gapCnt → 0x10 ∈ t.trace ∨ 0x13 ∈ t.trace ∨ 0x14 ∈ t.trace ∨ 0x30 ∈ t.trace) ∧
    (t.att ≠ s.att → 0x11 ∈ t.trace ∨ 0x12 ∈ t.trace ∨ 0x14 ∈ t.trace ∨ 0x30 ∈ t.trace) ∧
    (t.clk ≠ s.clk ∨ t.cmd ≠ s.cmd → 0x12 ∈ t.trace ∨ 0x14 ∈ t.trace ∨ 0x30 ∈ t.trace) ∧
    (s.wdArmed = false → t.wdArmed = true → 0x11 ∈ t.trace) ∧
    (s.wdArmed = true → t.wdArmed = false → 0x13 ∈ t.trace ∨ 0x14 ∈ t.trace ∨ 0x30 ∈ t.trace) ∧
    (t.wdCnt ≠ s.wdCnt → 0x11 ∈ t.trace ∨ 0x13 ∈ t.trace ∨ 0x14 ∈ t.trace ∨ 0x30 ∈ t.trace ∨
      (s.wdArmed = true ∧ t.wdCnt + 1 = s.wdCnt)) ∧
    (t.scCnt ≠ s.scCnt → 0x10 ∈ t.trace ∨ 0x11 ∈ t.trace ∨ 0x12 ∈ t.trace ∨ 0x30 ∈ t.trace ∨
      (s.serEn = true ∧ st.hold = false ∧ t.scCnt + 1 = s.scCnt)) ∧
    -- the sample flag, the Report Builder, the Mode Arbitrator
    (s.sampleComplete = false → t.sampleComplete = true → 0x02 ∈ t.trace ∨ 0x13 ∈ t.trace) ∧
    (s.sampleComplete = true → t.sampleComplete = false → 0x30 ∈ t.trace ∨ 0x31 ∈ t.trace ∨ 0x32 ∈ t.trace) ∧
    (t.rpt ≠ s.rpt → 0x31 ∈ t.trace ∨ 0x32 ∈ t.trace) ∧
    (s.sendPending = false → t.sendPending = true → 0x31 ∈ t.trace ∨ 0x32 ∈ t.trace) ∧
    (t.mode ≠ s.mode ∨ t.ptEn ≠ s.ptEn ∨ t.serEn ≠ s.serEn ∨ t.selOe ≠ s.selOe ∨ t.serOe ≠ s.serOe →
      0x30 ∈ t.trace) ∧
    -- Idle/Transmit Scheduler and host requests
    (s.sendPending = true → t.sendPending = false → 0x33 ∈ t.trace) ∧
    (t.idleCnt ≠ s.idleCnt → 0x20 ∈ t.trace ∨ 0x33 ∈ t.trace ∨ 0x42 ∈ t.trace) ∧
    (s.idleElapsed = false → t.idleElapsed = true → 0x20 ∈ t.trace) ∧
    (s.idleElapsed = true → t.idleElapsed = false → 0x33 ∈ t.trace ∨ 0x42 ∈ t.trace) ∧
    (t.itCnt ≠ s.itCnt → 0x20 ∈ t.trace ∨ 0x33 ∈ t.trace ∨ t.itCnt + 1 = s.itCnt) ∧
    (t.idleRate ≠ s.idleRate → 0x42 ∈ t.trace) ∧ t.params = s.params

/-- 41_mux_engine.md R72 corner case b, 42_serial_engine.md R81 and 40_timing_service.md R63: in a step without a
latch the lines do not matter, in a step without a serial edge DAT does not, and HOLD matters to the serial timer
only. -/
def Obligations.InputsMatterToTheirReadersOnly : Prop :=
  ∀ (s t : State) (st : Stim), exec (.step st) s = .next t →
    (∀ l0 l1, 0x04 ∉ t.trace → exec (.step { st with lines0 := l0, lines1 := l1 }) s =
      .next { t with pins := { st with lines0 := l0, lines1 := l1 } }) ∧
    (∀ d, 0x12 ∉ t.trace → exec (.step { st with dat := d }) s = .next { t with pins := { st with dat := d } }) ∧
    (∀ h, s.serEn = false → exec (.step { st with hold := h }) s = .next { t with pins := { st with hold := h } })

/-- 60_exceptions.md R124: of the core's state a host request reaches only the idle rate, and through it the idle count
and the sending of reports; two steps that differ in the request alone leave the engines, the mode and the report the
same. -/
def Obligations.RequestsReachOnlyTheIdleState : Prop :=
  ∀ (s t t' : State) (st : Stim) (reqv : Bool) (rqt rq : Byte) (wval : BitVec 16), s.Inv →
    exec (.step st) s = .next t →
    exec (.step { st with reqv := reqv, rqt := rqt, rq := rq, wval := wval }) s = .next t' →
    t' = { t with
      idleRate := t'.idleRate, idleCnt := t'.idleCnt, idleElapsed := t'.idleElapsed, itCnt := t'.itCnt
      sendPending := t'.sendPending, pins := t'.pins, tx := t'.tx, resp := t'.resp, trace := t'.trace }

/-- 41_mux_engine.md R76: in serial mode the multiplexed engine is inert. -/
def Obligations.MuxEngineInertInSerialMode : Prop :=
  ∀ (s t : State) (st : Stim), s.Inv → s.mode = .serial → exec (.step st) s = .next t →
    t.mode = .serial ∧ t.ptEn = false ∧ t.needSample = false ∧ t.selOe = false ∧ t.outputs.selOut0 = .z ∧
    t.outputs.selOut1 = .z ∧ t.phase = 8 ∧ t.raw = s.raw ∧ t.sel = s.sel ∧ t.ptCnt = s.ptCnt ∧
    t.ptPeriod = s.ptPeriod ∧ 0x01 ∉ t.trace ∧ 0x02 ∉ t.trace ∧ 0x03 ∉ t.trace ∧ 0x04 ∉ t.trace

/-- 43_mode_arbiter.md R96, its last quotation, the other way round: while serial mode is not selected the serial
engine is inert. -/
def Obligations.SerialEngineInertOutsideSerialMode : Prop :=
  ∀ (s t : State) (st : Stim), s.Inv → exec (.step st) s = .next t → t.mode ≠ .serial →
    t.serEn = false ∧ t.outputs.attOut = .z ∧ t.outputs.clkOut = .z ∧ t.outputs.cmdOut = .z ∧
    t.acc = s.acc ∧ t.byteIdx = s.byteIdx ∧ t.edgeIdx = s.edgeIdx ∧ t.serPhase = .gap ∧ t.gapCnt = s.gapCnt ∧
    t.scCnt = s.scCnt ∧ t.wdArmed = false ∧ t.wdCnt = s.wdCnt ∧
    0x10 ∉ t.trace ∧ 0x11 ∉ t.trace ∧ 0x12 ∉ t.trace ∧ 0x13 ∉ t.trace ∧ 0x14 ∉ t.trace

/-- 40_timing_service.md R61 to R63, 60_exceptions.md R128: of the timers that run in serial mode HOLD stops the serial
one and its ticks, and neither the watchdog nor the idle timer. -/
def Obligations.HoldStallsTheSerialTimerOnly : Prop :=
  ∀ (s t : State) (st : Stim), s.Inv → s.mode = .serial → st.hold = true → exec (.step st) s = .next t →
    t.scCnt = s.scCnt ∧ 0x10 ∉ t.trace ∧ 0x11 ∉ t.trace ∧ 0x12 ∉ t.trace ∧ 0x13 ∉ t.trace ∧
    (s.wdArmed = true → 1 < s.wdCnt →
      t.wdArmed = true ∧ t.wdCnt = s.wdCnt - 1 ∧ t.serPhase = s.serPhase ∧ t.acc = s.acc) ∧
    (s.wdArmed = true → s.wdCnt = 1 → 0x14 ∈ t.trace ∧ t.serPhase = .gap ∧ t.wdArmed = false ∧ t.rpt = s.rpt) ∧
    (0x20 ∈ t.trace ↔ s.itCnt = 1) ∧
    (t.itCnt = if s.itCnt = 1 ∨ 0x33 ∈ t.trace then s.params.tIdle else s.itCnt - 1)

/-- 10_state.md R33, 30_encoding.md R53: the outputs read from the state, tri-state where not enabled. -/
def Obligations.OutputsReadTheState : Prop :=
  ∀ s : State,
    (s.selOe = true → s.outputs.selOut0 = .driven s.sel ∧ s.outputs.selOut1 = .driven s.sel) ∧
    (s.selOe = false → s.outputs.selOut0 = .z ∧ s.outputs.selOut1 = .z) ∧
    (s.serOe = true → s.outputs.attOut = .driven s.att ∧ s.outputs.clkOut = .driven s.clk ∧
      s.outputs.cmdOut = .driven s.cmd) ∧
    (s.serOe = false → s.outputs.attOut = .z ∧ s.outputs.clkOut = .z ∧ s.outputs.cmdOut = .z) ∧
    (s.outputs.txValid = true ↔ ∃ r, s.tx = some r) ∧ (s.resp = .none → s.outputs.respKind = 0) ∧
    (s.outputs.respKind ≠ 1 → s.outputs.respLen = 0) ∧ s.outputs.respData.length = 6 ∧
    s.outputs.trace = s.trace

/-- 30_encoding.md R55: a pseudo-statement does exactly what its expansion does. SERPAD gives no word itself; from it on,
until a statement sets `dat`, the `dat` field of each step and of each request's step is the answer bit for the position at
the start of that step, and 1 in the gap and from edge 16 on (R54: STEP n is n such steps, one after the other). -/
def Obligations.PseudoStatementsExpand : Prop :=
  ∀ (env : ScriptEnv) (s : State),
    runStmt .reqGetReport env s = runStmt (.reqRaw 0xA1 0x01 0x0100) env s ∧
    runStmt .reqGetIdle env s = runStmt (.reqRaw 0xA1 0x02 0x0000) env s ∧
    (∀ n, runStmt (.reqSetIdle n) env s = runStmt (.reqRaw 0x21 0x0A (n <<< 8)) env s) ∧
    (∀ k, env.last < k → runStmt (.runTo k) env s = runStmt (.stepN (k - env.last)) env s) ∧
    (∀ k, k ≤ env.last → runStmt (.runTo k) env s = .error (.runToNotAhead k env.last)) ∧
    (∀ pressed, runStmt (.padPress 0 pressed) env s =
      runStmt (.set [(.lines0, (padLines pressed).toNat)]) env s) ∧
    (∀ pressed, runStmt (.padPress 1 pressed) env s =
      runStmt (.set [(.lines1, (padLines pressed).toNat)]) env s) ∧
    (∀ (pressed : List (Fin 6)) (k : Fin 6), (padLines pressed).getLsbD k = !(pressed.contains k)) ∧
    (∀ answer, runStmt (.serpad answer) env s = .ok ({ env with serpad := some answer }, s)) ∧
    (∀ (answer : Vector Byte 9) (b : Fin 9), env.serpad = some answer → s.byteIdx = b.val →
      env.stim s = { lines0 := env.lines0, lines1 := env.lines1, epRdy := env.epready, hold := env.hold, reqv := false
                     rqt := 0, rq := 0, wval := 0
                     dat := if s.serPhase = .active ∧ s.edgeIdx < 16 then answer[b].getLsbD (s.edgeIdx >>> 1)
                       else true }) ∧
    (∀ n, runStmt (.stepN (n + 1)) env s =
      match feed (encodeStim (env.stim s)) s with
      | .ok t => runStmt (.stepN n) { env with last := env.last + 1 } t
      | .error e => .error e) ∧
    (∀ (rqt rq : Byte) (wval : BitVec 16), runStmt (.reqRaw rqt.toNat rq.toNat wval.toNat) env s =
      match feed (encodeStim { env.stim s with reqv := true, rqt := rqt, rq := rq, wval := wval }) s with
      | .ok t => .ok ({ env with last := env.last + 1 }, t)
      | .error e => .error e) ∧
    (∀ level : Bool, runStmt (.set [(.dat, level.toNat)]) env s = .ok ({ env with dat := level, serpad := none }, s)) ∧
    (∀ fields env', (∀ v, (ScriptField.dat, v) ∉ fields) → runStmt (.set fields) env s = .ok (env', s) →
      env'.serpad = env.serpad)

/-- The invariant of Safety.lean (10_state.md R34 and what makes it inductive) holds right after reset, for every legal
parameter record and for the defaults. -/
def Obligations.InvariantHoldsAtReset : Prop :=
  (∀ p : Params, p.Legal → (State.resetWith p).Inv) ∧ State.reset.Inv

/-- 10_state.md R34: from every state that meets the invariant, a step of any word gives a state that meets it. -/
def Obligations.StepKeepsTheInvariant : Prop :=
  ∀ s t : State, s.Inv → step s = .next t → t.Inv

/-- 10_state.md R30, 60_exceptions.md R119: no run of a legal machine from reset, whatever words the environment gives
and however long it is, meets a fault or a refusal. -/
def Obligations.LegalRunsNeverStop : Prop :=
  ∀ (p : Params) (ws : List StimWord), p.Legal → State.RunsSafely { State.resetWith p with inputs := ws }

/-- 00_scope.md R8, R10: in every state that meets the invariant each counter fits the width that 10_state.md gives
it. -/
def Obligations.CountersFitTheirWidths : Prop :=
  ∀ s : State, s.Inv → s.Fits

/-- 70_reset_and_hazards.md R135, 42_serial_engine.md R86 corner case a: while HOLD = 0 a transaction stays in time,
whatever the pad answers, and the watchdog never expires. -/
def Obligations.HealthyTransactionsOutrunTheWatchdog : Prop :=
  (∀ p : Params, p.Legal → (State.resetWith p).InTime) ∧
  ∀ (s t : State) (st : Stim), s.Inv → s.InTime → st.hold = false → exec (.step st) s = .next t →
    t.InTime ∧ 0x14 ∉ t.trace

/-- 60_exceptions.md R116: a transaction that HOLD stalls is abandoned when the watchdog's count ends, in exactly
`wd_cnt` steps: no earlier step ends it, and the report is kept. -/
def Obligations.StalledTransactionIsAbandoned : Prop :=
  ∀ s : State, s.Inv → s.serPhase = .active → s.wdCnt ≤ s.inputs.length →
    (∀ w ∈ s.inputs, w.getLsbD 15 = false ∧ w.getLsbD 14 = true) →
    (∀ k u, k < s.wdCnt → core.run k s = .next u → u.serPhase = .active ∧ u.acc = s.acc) ∧
    ∃ u, core.run s.wdCnt s = .next u ∧ 0x14 ∈ u.trace ∧ u.serPhase = .gap ∧ u.byteIdx = 0 ∧ u.edgeIdx = 0 ∧
      u.acc = Vector.replicate 6 0x00 ∧ u.rpt = s.rpt ∧ u.sampleComplete = false

/-- 43_mode_arbiter.md R96, 70_reset_and_hazards.md R131, R139: after reset the mode is decided at step 9·T_POLL and
not before, and no report leaves the core before that step. -/
def Obligations.ModeIsDecidedAtNinePollPeriods : Prop :=
  ∀ (p : Params) (ws : List StimWord), p.Legal → ws.length = 9 * p.tPoll →
    (∀ w ∈ ws, w.getLsbD 15 = false) →
    (∀ k u, k < 9 * p.tPoll → core.run k { State.resetWith p with inputs := ws } = .next u →
      u.mode = .undecided ∧ u.tx = none) ∧
    ∃ u, core.run (9 * p.tPoll) { State.resetWith p with inputs := ws } = .next u ∧ u.mode ≠ .undecided ∧
      0x02 ∈ u.trace ∧ 0x30 ∈ u.trace

/-- 10_state.md R31: every field of the register table stands at its bits in its register, and right after reset holds
the value of the reset column. -/
def Obligations.RegisterViewsPackTheFields : Prop :=
  (∀ s : State, s.Fits →
    (s.regMode.toNat = match s.mode with | .undecided => 0 | .mux => 1 | .serial => 2 | .three => 3) ∧
    s.regIdleRate = s.idleRate ∧
    (s.regIdleStat.extractLsb' 0 8).toNat = s.idleCnt ∧ s.regIdleStat.getLsbD 8 = s.idleElapsed ∧
    s.regIdleStat.getLsbD 9 = s.sendPending ∧
    s.regPollCtrl.getLsbD 0 = s.ptEn ∧ (s.regPollCtrl.extractLsb' 1 16).toNat = s.ptPeriod ∧
    (s.regMuxStat.extractLsb' 0 4).toNat = s.phase ∧ s.regMuxStat.getLsbD 4 = s.needSample ∧
    s.regMuxStat.getLsbD 5 = s.sel ∧ s.regMuxStat.getLsbD 6 = s.selOe ∧
    s.regSerCtrl.getLsbD 0 = s.serEn ∧ s.regSerCtrl.getLsbD 1 = s.serOe ∧
    s.regSerStat.getLsbD 0 = decide (s.serPhase = .active) ∧ (s.regSerStat.extractLsb' 1 4).toNat = s.byteIdx ∧
    (s.regSerStat.extractLsb' 5 8).toNat = s.edgeIdx ∧ (s.regSerStat.extractLsb' 13 8).toNat = s.gapCnt ∧
    s.regSerStat.getLsbD 21 = s.att ∧ s.regSerStat.getLsbD 22 = s.clk ∧ s.regSerStat.getLsbD 23 = s.cmd ∧
    s.regWdStat.getLsbD 0 = s.wdArmed ∧ (s.regWdStat.extractLsb' 1 16).toNat = s.wdCnt ∧
    s.regFlags.getLsbD 0 = s.sampleComplete) ∧
  (∀ s : State, ∃ t, exec .reset s = .next t ∧
    t.regMode = 0 ∧ t.regIdleRate = s.params.idleDefault ∧ t.regIdleStat = 0 ∧
    t.regPollCtrl.getLsbD 0 = true ∧ t.regPollCtrl.extractLsb' 1 16 = BitVec.ofNat 16 s.params.tPoll ∧
    t.regMuxStat.extractLsb' 0 4 = 8 ∧ t.regMuxStat.getLsbD 4 = false ∧
    t.regMuxStat.getLsbD 5 = s.params.selIdle ∧ t.regMuxStat.getLsbD 6 = true ∧
    t.regSerCtrl = 0 ∧ t.regSerStat = 0xE00000 ∧ t.regWdStat = 0 ∧ t.regFlags = 0)
end

