-- ==== Sys2Proof/Laws/State.lean ====
section
/-! SUPPORT. What each update leaves in each field. The updates that every proof meets (`emit`, `raise`, `takeWord`,
`giveWord`, `beginStep`) have one lemma for each field; the others are given as the record they are, whose projections
simp reads at once. -/

namespace Sys2Proof.Machine

variable (s : State)

/-! ## emit -/

@[simp] theorem State.emit_params (c : Byte) : (s.emit c).params = s.params := rfl
@[simp] theorem State.emit_phase (c : Byte) : (s.emit c).phase = s.phase := rfl
@[simp] theorem State.emit_sel (c : Byte) : (s.emit c).sel = s.sel := rfl
@[simp] theorem State.emit_selOe (c : Byte) : (s.emit c).selOe = s.selOe := rfl
@[simp] theorem State.emit_needSample (c : Byte) : (s.emit c).needSample = s.needSample := rfl
@[simp] theorem State.emit_stCnt (c : Byte) : (s.emit c).stCnt = s.stCnt := rfl
@[simp] theorem State.emit_raw (c : Byte) : (s.emit c).raw = s.raw := rfl
@[simp] theorem State.emit_ptEn (c : Byte) : (s.emit c).ptEn = s.ptEn := rfl
@[simp] theorem State.emit_ptPeriod (c : Byte) : (s.emit c).ptPeriod = s.ptPeriod := rfl
@[simp] theorem State.emit_ptCnt (c : Byte) : (s.emit c).ptCnt = s.ptCnt := rfl
@[simp] theorem State.emit_serEn (c : Byte) : (s.emit c).serEn = s.serEn := rfl
@[simp] theorem State.emit_serOe (c : Byte) : (s.emit c).serOe = s.serOe := rfl
@[simp] theorem State.emit_serPhase (c : Byte) : (s.emit c).serPhase = s.serPhase := rfl
@[simp] theorem State.emit_gapCnt (c : Byte) : (s.emit c).gapCnt = s.gapCnt := rfl
@[simp] theorem State.emit_byteIdx (c : Byte) : (s.emit c).byteIdx = s.byteIdx := rfl
@[simp] theorem State.emit_edgeIdx (c : Byte) : (s.emit c).edgeIdx = s.edgeIdx := rfl
@[simp] theorem State.emit_acc (c : Byte) : (s.emit c).acc = s.acc := rfl
@[simp] theorem State.emit_att (c : Byte) : (s.emit c).att = s.att := rfl
@[simp] theorem State.emit_clk (c : Byte) : (s.emit c).clk = s.clk := rfl
@[simp] theorem State.emit_cmd (c : Byte) : (s.emit c).cmd = s.cmd := rfl
@[simp] theorem State.emit_scCnt (c : Byte) : (s.emit c).scCnt = s.scCnt := rfl
@[simp] theorem State.emit_wdArmed (c : Byte) : (s.emit c).wdArmed = s.wdArmed := rfl
@[simp] theorem State.emit_wdCnt (c : Byte) : (s.emit c).wdCnt = s.wdCnt := rfl
@[simp] theorem State.emit_sampleComplete (c : Byte) : (s.emit c).sampleComplete = s.sampleComplete := rfl
@[simp] theorem State.emit_mode (c : Byte) : (s.emit c).mode = s.mode := rfl
@[simp] theorem State.emit_rpt (c : Byte) : (s.emit c).rpt = s.rpt := rfl
@[simp] theorem State.emit_idleRate (c : Byte) : (s.emit c).idleRate = s.idleRate := rfl
@[simp] theorem State.emit_idleCnt (c : Byte) : (s.emit c).idleCnt = s.idleCnt := rfl
@[simp] theorem State.emit_idleElapsed (c : Byte) : (s.emit c).idleElapsed = s.idleElapsed := rfl
@[simp] theorem State.emit_itCnt (c : Byte) : (s.emit c).itCnt = s.itCnt := rfl
@[simp] theorem State.emit_sendPending (c : Byte) : (s.emit c).sendPending = s.sendPending := rfl
@[simp] theorem State.emit_fault (c : Byte) : (s.emit c).fault = s.fault := rfl
@[simp] theorem State.emit_pins (c : Byte) : (s.emit c).pins = s.pins := rfl
@[simp] theorem State.emit_tx (c : Byte) : (s.emit c).tx = s.tx := rfl
@[simp] theorem State.emit_resp (c : Byte) : (s.emit c).resp = s.resp := rfl
@[simp] theorem State.emit_trace (c : Byte) : (s.emit c).trace = s.trace ++ [c] := rfl
@[simp] theorem State.emit_inputs (c : Byte) : (s.emit c).inputs = s.inputs := rfl
@[simp] theorem State.emit_seq (c : Byte) : (s.emit c).seq = s.seq := rfl

/-! ## raise -/

@[simp] theorem State.raise_params (r : Fault) : (s.raise r).params = s.params := rfl
@[simp] theorem State.raise_phase (r : Fault) : (s.raise r).phase = s.phase := rfl
@[simp] theorem State.raise_sel (r : Fault) : (s.raise r).sel = s.sel := rfl
@[simp] theorem State.raise_selOe (r : Fault) : (s.raise r).selOe = s.selOe := rfl
@[simp] theorem State.raise_needSample (r : Fault) : (s.raise r).needSample = s.needSample := rfl
@[simp] theorem State.raise_stCnt (r : Fault) : (s.raise r).stCnt = s.stCnt := rfl
@[simp] theorem State.raise_raw (r : Fault) : (s.raise r).raw = s.raw := rfl
@[simp] theorem State.raise_ptEn (r : Fault) : (s.raise r).ptEn = s.ptEn := rfl
@[simp] theorem State.raise_ptPeriod (r : Fault) : (s.raise r).ptPeriod = s.ptPeriod := rfl
@[simp] theorem State.raise_ptCnt (r : Fault) : (s.raise r).ptCnt = s.ptCnt := rfl
@[simp] theorem State.raise_serEn (r : Fault) : (s.raise r).serEn = s.serEn := rfl
@[simp] theorem State.raise_serOe (r : Fault) : (s.raise r).serOe = s.serOe := rfl
@[simp] theorem State.raise_serPhase (r : Fault) : (s.raise r).serPhase = s.serPhase := rfl
@[simp] theorem State.raise_gapCnt (r : Fault) : (s.raise r).gapCnt = s.gapCnt := rfl
@[simp] theorem State.raise_byteIdx (r : Fault) : (s.raise r).byteIdx = s.byteIdx := rfl
@[simp] theorem State.raise_edgeIdx (r : Fault) : (s.raise r).edgeIdx = s.edgeIdx := rfl
@[simp] theorem State.raise_acc (r : Fault) : (s.raise r).acc = s.acc := rfl
@[simp] theorem State.raise_att (r : Fault) : (s.raise r).att = s.att := rfl
@[simp] theorem State.raise_clk (r : Fault) : (s.raise r).clk = s.clk := rfl
@[simp] theorem State.raise_cmd (r : Fault) : (s.raise r).cmd = s.cmd := rfl
@[simp] theorem State.raise_scCnt (r : Fault) : (s.raise r).scCnt = s.scCnt := rfl
@[simp] theorem State.raise_wdArmed (r : Fault) : (s.raise r).wdArmed = s.wdArmed := rfl
@[simp] theorem State.raise_wdCnt (r : Fault) : (s.raise r).wdCnt = s.wdCnt := rfl
@[simp] theorem State.raise_sampleComplete (r : Fault) : (s.raise r).sampleComplete = s.sampleComplete := rfl
@[simp] theorem State.raise_mode (r : Fault) : (s.raise r).mode = s.mode := rfl
@[simp] theorem State.raise_rpt (r : Fault) : (s.raise r).rpt = s.rpt := rfl
@[simp] theorem State.raise_idleRate (r : Fault) : (s.raise r).idleRate = s.idleRate := rfl
@[simp] theorem State.raise_idleCnt (r : Fault) : (s.raise r).idleCnt = s.idleCnt := rfl
@[simp] theorem State.raise_idleElapsed (r : Fault) : (s.raise r).idleElapsed = s.idleElapsed := rfl
@[simp] theorem State.raise_itCnt (r : Fault) : (s.raise r).itCnt = s.itCnt := rfl
@[simp] theorem State.raise_sendPending (r : Fault) : (s.raise r).sendPending = s.sendPending := rfl
@[simp] theorem State.raise_fault (r : Fault) : (s.raise r).fault = some r := rfl
@[simp] theorem State.raise_pins (r : Fault) : (s.raise r).pins = s.pins := rfl
@[simp] theorem State.raise_tx (r : Fault) : (s.raise r).tx = s.tx := rfl
@[simp] theorem State.raise_resp (r : Fault) : (s.raise r).resp = s.resp := rfl
@[simp] theorem State.raise_trace (r : Fault) : (s.raise r).trace = s.trace := rfl
@[simp] theorem State.raise_inputs (r : Fault) : (s.raise r).inputs = s.inputs := rfl
@[simp] theorem State.raise_seq (r : Fault) : (s.raise r).seq = s.seq := rfl

/-! ## takeWord -/

@[simp] theorem State.takeWord_params : (s.takeWord).params = s.params := rfl
@[simp] theorem State.takeWord_phase : (s.takeWord).phase = s.phase := rfl
@[simp] theorem State.takeWord_sel : (s.takeWord).sel = s.sel := rfl
@[simp] theorem State.takeWord_selOe : (s.takeWord).selOe = s.selOe := rfl
@[simp] theorem State.takeWord_needSample : (s.takeWord).needSample = s.needSample := rfl
@[simp] theorem State.takeWord_stCnt : (s.takeWord).stCnt = s.stCnt := rfl
@[simp] theorem State.takeWord_raw : (s.takeWord).raw = s.raw := rfl
@[simp] theorem State.takeWord_ptEn : (s.takeWord).ptEn = s.ptEn := rfl
@[simp] theorem State.takeWord_ptPeriod : (s.takeWord).ptPeriod = s.ptPeriod := rfl
@[simp] theorem State.takeWord_ptCnt : (s.takeWord).ptCnt = s.ptCnt := rfl
@[simp] theorem State.takeWord_serEn : (s.takeWord).serEn = s.serEn := rfl
@[simp] theorem State.takeWord_serOe : (s.takeWord).serOe = s.serOe := rfl
@[simp] theorem State.takeWord_serPhase : (s.takeWord).serPhase = s.serPhase := rfl
@[simp] theorem State.takeWord_gapCnt : (s.takeWord).gapCnt = s.gapCnt := rfl
@[simp] theorem State.takeWord_byteIdx : (s.takeWord).byteIdx = s.byteIdx := rfl
@[simp] theorem State.takeWord_edgeIdx : (s.takeWord).edgeIdx = s.edgeIdx := rfl
@[simp] theorem State.takeWord_acc : (s.takeWord).acc = s.acc := rfl
@[simp] theorem State.takeWord_att : (s.takeWord).att = s.att := rfl
@[simp] theorem State.takeWord_clk : (s.takeWord).clk = s.clk := rfl
@[simp] theorem State.takeWord_cmd : (s.takeWord).cmd = s.cmd := rfl
@[simp] theorem State.takeWord_scCnt : (s.takeWord).scCnt = s.scCnt := rfl
@[simp] theorem State.takeWord_wdArmed : (s.takeWord).wdArmed = s.wdArmed := rfl
@[simp] theorem State.takeWord_wdCnt : (s.takeWord).wdCnt = s.wdCnt := rfl
@[simp] theorem State.takeWord_sampleComplete : (s.takeWord).sampleComplete = s.sampleComplete := rfl
@[simp] theorem State.takeWord_mode : (s.takeWord).mode = s.mode := rfl
@[simp] theorem State.takeWord_rpt : (s.takeWord).rpt = s.rpt := rfl
@[simp] theorem State.takeWord_idleRate : (s.takeWord).idleRate = s.idleRate := rfl
@[simp] theorem State.takeWord_idleCnt : (s.takeWord).idleCnt = s.idleCnt := rfl
@[simp] theorem State.takeWord_idleElapsed : (s.takeWord).idleElapsed = s.idleElapsed := rfl
@[simp] theorem State.takeWord_itCnt : (s.takeWord).itCnt = s.itCnt := rfl
@[simp] theorem State.takeWord_sendPending : (s.takeWord).sendPending = s.sendPending := rfl
@[simp] theorem State.takeWord_fault : (s.takeWord).fault = s.fault := rfl
@[simp] theorem State.takeWord_pins : (s.takeWord).pins = s.pins := rfl
@[simp] theorem State.takeWord_tx : (s.takeWord).tx = s.tx := rfl
@[simp] theorem State.takeWord_resp : (s.takeWord).resp = s.resp := rfl
@[simp] theorem State.takeWord_trace : (s.takeWord).trace = s.trace := rfl
@[simp] theorem State.takeWord_inputs : (s.takeWord).inputs = s.inputs.tail := rfl
@[simp] theorem State.takeWord_seq : (s.takeWord).seq = s.seq + 1 := rfl

/-! ## giveWord -/

@[simp] theorem State.giveWord_params (w : StimWord) : (s.giveWord w).params = s.params := rfl
@[simp] theorem State.giveWord_phase (w : StimWord) : (s.giveWord w).phase = s.phase := rfl
@[simp] theorem State.giveWord_sel (w : StimWord) : (s.giveWord w).sel = s.sel := rfl
@[simp] theorem State.giveWord_selOe (w : StimWord) : (s.giveWord w).selOe = s.selOe := rfl
@[simp] theorem State.giveWord_needSample (w : StimWord) : (s.giveWord w).needSample = s.needSample := rfl
@[simp] theorem State.giveWord_stCnt (w : StimWord) : (s.giveWord w).stCnt = s.stCnt := rfl
@[simp] theorem State.giveWord_raw (w : StimWord) : (s.giveWord w).raw = s.raw := rfl
@[simp] theorem State.giveWord_ptEn (w : StimWord) : (s.giveWord w).ptEn = s.ptEn := rfl
@[simp] theorem State.giveWord_ptPeriod (w : StimWord) : (s.giveWord w).ptPeriod = s.ptPeriod := rfl
@[simp] theorem State.giveWord_ptCnt (w : StimWord) : (s.giveWord w).ptCnt = s.ptCnt := rfl
@[simp] theorem State.giveWord_serEn (w : StimWord) : (s.giveWord w).serEn = s.serEn := rfl
@[simp] theorem State.giveWord_serOe (w : StimWord) : (s.giveWord w).serOe = s.serOe := rfl
@[simp] theorem State.giveWord_serPhase (w : StimWord) : (s.giveWord w).serPhase = s.serPhase := rfl
@[simp] theorem State.giveWord_gapCnt (w : StimWord) : (s.giveWord w).gapCnt = s.gapCnt := rfl
@[simp] theorem State.giveWord_byteIdx (w : StimWord) : (s.giveWord w).byteIdx = s.byteIdx := rfl
@[simp] theorem State.giveWord_edgeIdx (w : StimWord) : (s.giveWord w).edgeIdx = s.edgeIdx := rfl
@[simp] theorem State.giveWord_acc (w : StimWord) : (s.giveWord w).acc = s.acc := rfl
@[simp] theorem State.giveWord_att (w : StimWord) : (s.giveWord w).att = s.att := rfl
@[simp] theorem State.giveWord_clk (w : StimWord) : (s.giveWord w).clk = s.clk := rfl
@[simp] theorem State.giveWord_cmd (w : StimWord) : (s.giveWord w).cmd = s.cmd := rfl
@[simp] theorem State.giveWord_scCnt (w : StimWord) : (s.giveWord w).scCnt = s.scCnt := rfl
@[simp] theorem State.giveWord_wdArmed (w : StimWord) : (s.giveWord w).wdArmed = s.wdArmed := rfl
@[simp] theorem State.giveWord_wdCnt (w : StimWord) : (s.giveWord w).wdCnt = s.wdCnt := rfl
@[simp] theorem State.giveWord_sampleComplete (w : StimWord) : (s.giveWord w).sampleComplete = s.sampleComplete := rfl
@[simp] theorem State.giveWord_mode (w : StimWord) : (s.giveWord w).mode = s.mode := rfl
@[simp] theorem State.giveWord_rpt (w : StimWord) : (s.giveWord w).rpt = s.rpt := rfl
@[simp] theorem State.giveWord_idleRate (w : StimWord) : (s.giveWord w).idleRate = s.idleRate := rfl
@[simp] theorem State.giveWord_idleCnt (w : StimWord) : (s.giveWord w).idleCnt = s.idleCnt := rfl
@[simp] theorem State.giveWord_idleElapsed (w : StimWord) : (s.giveWord w).idleElapsed = s.idleElapsed := rfl
@[simp] theorem State.giveWord_itCnt (w : StimWord) : (s.giveWord w).itCnt = s.itCnt := rfl
@[simp] theorem State.giveWord_sendPending (w : StimWord) : (s.giveWord w).sendPending = s.sendPending := rfl
@[simp] theorem State.giveWord_fault (w : StimWord) : (s.giveWord w).fault = s.fault := rfl
@[simp] theorem State.giveWord_pins (w : StimWord) : (s.giveWord w).pins = s.pins := rfl
@[simp] theorem State.giveWord_tx (w : StimWord) : (s.giveWord w).tx = s.tx := rfl
@[simp] theorem State.giveWord_resp (w : StimWord) : (s.giveWord w).resp = s.resp := rfl
@[simp] theorem State.giveWord_trace (w : StimWord) : (s.giveWord w).trace = s.trace := rfl
@[simp] theorem State.giveWord_inputs (w : StimWord) : (s.giveWord w).inputs = w :: s.inputs := rfl
@[simp] theorem State.giveWord_seq (w : StimWord) : (s.giveWord w).seq = s.seq := rfl

/-! ## beginStep -/

@[simp] theorem State.beginStep_params (st : Stim) : (s.beginStep st).params = s.params := rfl
@[simp] theorem State.beginStep_phase (st : Stim) : (s.beginStep st).phase = s.phase := rfl
@[simp] theorem State.beginStep_sel (st : Stim) : (s.beginStep st).sel = s.sel := rfl
@[simp] theorem State.beginStep_selOe (st : Stim) : (s.beginStep st).selOe = s.selOe := rfl
@[simp] theorem State.beginStep_needSample (st : Stim) : (s.beginStep st).needSample = s.needSample := rfl
@[simp] theorem State.beginStep_stCnt (st : Stim) : (s.beginStep st).stCnt = s.stCnt := rfl
@[simp] theorem State.beginStep_raw (st : Stim) : (s.beginStep st).raw = s.raw := rfl
@[simp] theorem State.beginStep_ptEn (st : Stim) : (s.beginStep st).ptEn = s.ptEn := rfl
@[simp] theorem State.beginStep_ptPeriod (st : Stim) : (s.beginStep st).ptPeriod = s.ptPeriod := rfl
@[simp] theorem State.beginStep_ptCnt (st : Stim) : (s.beginStep st).ptCnt = s.ptCnt := rfl
@[simp] theorem State.beginStep_serEn (st : Stim) : (s.beginStep st).serEn = s.serEn := rfl
@[simp] theorem State.beginStep_serOe (st : Stim) : (s.beginStep st).serOe = s.serOe := rfl
@[simp] theorem State.beginStep_serPhase (st : Stim) : (s.beginStep st).serPhase = s.serPhase := rfl
@[simp] theorem State.beginStep_gapCnt (st : Stim) : (s.beginStep st).gapCnt = s.gapCnt := rfl
@[simp] theorem State.beginStep_byteIdx (st : Stim) : (s.beginStep st).byteIdx = s.byteIdx := rfl
@[simp] theorem State.beginStep_edgeIdx (st : Stim) : (s.beginStep st).edgeIdx = s.edgeIdx := rfl
@[simp] theorem State.beginStep_acc (st : Stim) : (s.beginStep st).acc = s.acc := rfl
@[simp] theorem State.beginStep_att (st : Stim) : (s.beginStep st).att = s.att := rfl
@[simp] theorem State.beginStep_clk (st : Stim) : (s.beginStep st).clk = s.clk := rfl
@[simp] theorem State.beginStep_cmd (st : Stim) : (s.beginStep st).cmd = s.cmd := rfl
@[simp] theorem State.beginStep_scCnt (st : Stim) : (s.beginStep st).scCnt = s.scCnt := rfl
@[simp] theorem State.beginStep_wdArmed (st : Stim) : (s.beginStep st).wdArmed = s.wdArmed := rfl
@[simp] theorem State.beginStep_wdCnt (st : Stim) : (s.beginStep st).wdCnt = s.wdCnt := rfl
@[simp] theorem State.beginStep_sampleComplete (st : Stim) : (s.beginStep st).sampleComplete = s.sampleComplete := rfl
@[simp] theorem State.beginStep_mode (st : Stim) : (s.beginStep st).mode = s.mode := rfl
@[simp] theorem State.beginStep_rpt (st : Stim) : (s.beginStep st).rpt = s.rpt := rfl
@[simp] theorem State.beginStep_idleRate (st : Stim) : (s.beginStep st).idleRate = s.idleRate := rfl
@[simp] theorem State.beginStep_idleCnt (st : Stim) : (s.beginStep st).idleCnt = s.idleCnt := rfl
@[simp] theorem State.beginStep_idleElapsed (st : Stim) : (s.beginStep st).idleElapsed = s.idleElapsed := rfl
@[simp] theorem State.beginStep_itCnt (st : Stim) : (s.beginStep st).itCnt = s.itCnt := rfl
@[simp] theorem State.beginStep_sendPending (st : Stim) : (s.beginStep st).sendPending = s.sendPending := rfl
@[simp] theorem State.beginStep_fault (st : Stim) : (s.beginStep st).fault = s.fault := rfl
@[simp] theorem State.beginStep_pins (st : Stim) : (s.beginStep st).pins = st := rfl
@[simp] theorem State.beginStep_tx (st : Stim) : (s.beginStep st).tx = none := rfl
@[simp] theorem State.beginStep_resp (st : Stim) : (s.beginStep st).resp = .none := rfl
@[simp] theorem State.beginStep_trace (st : Stim) : (s.beginStep st).trace = [] := rfl
@[simp] theorem State.beginStep_inputs (st : Stim) : (s.beginStep st).inputs = s.inputs := rfl
@[simp] theorem State.beginStep_seq (st : Stim) : (s.beginStep st).seq = s.seq := rfl

/-! ## Updates given as records -/

@[simp] theorem State.armLatch_eq : s.armLatch =
    { s with needSample := true, stCnt := s.params.tSettle } := rfl
@[simp] theorem State.clearNeedSample_eq : s.clearNeedSample = { s with needSample := false } := rfl
@[simp] theorem State.markComplete_eq : s.markComplete = { s with sampleComplete := true } := rfl
@[simp] theorem State.clearComplete_eq : s.clearComplete = { s with sampleComplete := false } := rfl
@[simp] theorem State.setElapsed_eq : s.setElapsed = { s with idleElapsed := true } := rfl
@[simp] theorem State.restartIdleCount_eq : s.restartIdleCount = { s with idleCnt := 0, idleElapsed := false } := rfl
@[simp] theorem State.clearPending_eq : s.clearPending = { s with sendPending := false } := rfl
@[simp] theorem State.armWatchdog_eq : s.armWatchdog = { s with wdArmed := true, wdCnt := s.params.tWd } := rfl
@[simp] theorem State.disarmWatchdog_eq : s.disarmWatchdog = { s with wdArmed := false, wdCnt := 0 } := rfl
@[simp] theorem State.clearAcc_eq : s.clearAcc = { s with acc := Vector.replicate 6 0x00 } := rfl
@[simp] theorem State.memReadReport_eq : s.memReadReport = s.rpt := rfl
@[simp] theorem State.memWriteReport_eq (r : Report) : s.memWriteReport r = { s with rpt := r } := rfl
@[simp] theorem State.shiftAcc_eq (i : Fin 6) (d : Bool) : s.shiftAcc i d = { s with acc := s.acc.set i (shiftIn s.acc[i] d) } := rfl
@[simp] theorem State.idleLines_eq : s.idleLines = { s with att := true, clk := true, cmd := true } := rfl
@[simp] theorem State.enterGap_eq : s.enterGap =
    { s with byteIdx := 0, edgeIdx := 0, serPhase := .gap, gapCnt := s.params.txnGap } := rfl

end Sys2Proof.Machine
end

