-- ==== Sys2Proof/Laws/Ops.lean ====
section
/-! SUPPORT. One lemma, or a pair for the two outcomes, for each shared operation: what it gives when no fault arises
and what it gives otherwise. Later proofs cite these and do not unfold the operations. -/

namespace Sys2Proof.Machine

variable {s : State}

/-! ## Sequence and faults -/

theorem State.andThen_of_noFault (h : s.fault = none) (f : State → State) : s.andThen f = f s := by
  simp [State.andThen, h]

theorem State.andThen_of_fault {r : Fault} (h : s.fault = some r) (f : State → State) : s.andThen f = s := by
  simp [State.andThen, h]

/-- What `andThen` can do: run the rest from a state without a fault, or leave a faulted state alone. -/
theorem State.andThen_cases (s : State) (f : State → State) :
    (s.fault = none ∧ s.andThen f = f s) ∨ (∃ r, s.fault = some r ∧ s.andThen f = s) := by
  cases h : s.fault with
  | none => exact .inl ⟨rfl, s.andThen_of_noFault h f⟩
  | some r => exact .inr ⟨r, rfl, s.andThen_of_fault h f⟩

theorem runOp_of_noFault (h : s.fault = none) (f : State → State) : runOp f s = .next (f s) := by
  simp [runOp, h]

theorem runOp_of_fault {r : Fault} (h : s.fault = some r) (f : State → State) : runOp f s = .fault r := by
  simp [runOp, h]

/-- What an operation can answer as a next state. -/
theorem runOp_eq_next {f : State → State} {t : State} : runOp f s = .next t ↔ s.fault = none ∧ t = f s := by
  cases h : s.fault with
  | none => rw [runOp_of_noFault h]; simp [eq_comm]
  | some r => rw [runOp_of_fault h]; simp

/-! ## Counter writes -/

theorem State.putPhase_of_le {v : Nat} (h : v ≤ 8) : s.putPhase v = { s with phase := v } := by simp [putPhase, h]

theorem State.putPhase_of_lt {v : Nat} (h : 8 < v) : s.putPhase v = s.raise .counterRange := by
  simp [putPhase, show ¬ v ≤ 8 by omega]

theorem State.putPtCnt_of_mem {v : Nat} (h : 1 ≤ v ∧ v ≤ 65535) : s.putPtCnt v = { s with ptCnt := v } := by
  simp [putPtCnt, h]

theorem State.putPtCnt_of_not {v : Nat} (h : ¬ (1 ≤ v ∧ v ≤ 65535)) : s.putPtCnt v = s.raise .counterRange := by
  simp only [putPtCnt, if_neg h]

theorem State.putStCnt_of_le {v : Nat} (h : v ≤ s.params.tSettle) : s.putStCnt v = { s with stCnt := v } := by
  simp [putStCnt, h]

theorem State.putStCnt_of_lt {v : Nat} (h : s.params.tSettle < v) : s.putStCnt v = s.raise .counterRange := by
  simp [putStCnt, show ¬ v ≤ s.params.tSettle by omega]

theorem State.putGapCnt_of_le {v : Nat} (h : v ≤ s.params.txnGap) : s.putGapCnt v = { s with gapCnt := v } := by
  simp [putGapCnt, h]

theorem State.putGapCnt_of_lt {v : Nat} (h : s.params.txnGap < v) : s.putGapCnt v = s.raise .counterRange := by
  simp [putGapCnt, show ¬ v ≤ s.params.txnGap by omega]

theorem State.putByteIdx_of_le {v : Nat} (h : v ≤ 8) : s.putByteIdx v = { s with byteIdx := v } := by
  simp [putByteIdx, h]

theorem State.putByteIdx_of_lt {v : Nat} (h : 8 < v) : s.putByteIdx v = s.raise .counterRange := by
  simp [putByteIdx, show ¬ v ≤ 8 by omega]

theorem State.putEdgeIdx_of_lt {v : Nat} (h : v < s.params.eByte) : s.putEdgeIdx v = { s with edgeIdx := v } := by
  simp [putEdgeIdx, h]

theorem State.putEdgeIdx_of_le {v : Nat} (h : s.params.eByte ≤ v) : s.putEdgeIdx v = s.raise .counterRange := by
  simp [putEdgeIdx, show ¬ v < s.params.eByte by omega]

theorem State.putScCnt_of_mem {v : Nat} (h : 1 ≤ v ∧ v ≤ s.params.tHalf) : s.putScCnt v = { s with scCnt := v } := by
  simp [putScCnt, h]

theorem State.putScCnt_of_not {v : Nat} (h : ¬ (1 ≤ v ∧ v ≤ s.params.tHalf)) :
    s.putScCnt v = s.raise .counterRange := by simp only [putScCnt, if_neg h]

theorem State.putWdCnt_of_le {v : Nat} (h : v ≤ s.params.tWd) : s.putWdCnt v = { s with wdCnt := v } := by
  simp [putWdCnt, h]

theorem State.putWdCnt_of_lt {v : Nat} (h : s.params.tWd < v) : s.putWdCnt v = s.raise .counterRange := by
  simp [putWdCnt, show ¬ v ≤ s.params.tWd by omega]

theorem State.putIdleCnt_of_le {v : Nat} (h : v ≤ 255) : s.putIdleCnt v = { s with idleCnt := v } := by
  simp [putIdleCnt, h]

theorem State.putIdleCnt_of_lt {v : Nat} (h : 255 < v) : s.putIdleCnt v = s.raise .counterRange := by
  simp [putIdleCnt, show ¬ v ≤ 255 by omega]

theorem State.putItCnt_of_mem {v : Nat} (h : 1 ≤ v ∧ v ≤ s.params.tIdle) : s.putItCnt v = { s with itCnt := v } := by
  simp [putItCnt, h]

theorem State.putItCnt_of_not {v : Nat} (h : ¬ (1 ≤ v ∧ v ≤ s.params.tIdle)) :
    s.putItCnt v = s.raise .counterRange := by simp only [putItCnt, if_neg h]

theorem State.countDown_zero (put : State → Nat → State) : s.countDown put 0 = s.raise .counterRange := rfl

theorem State.countDown_of_pos (put : State → Nat → State) {n : Nat} (h : 1 ≤ n) :
    s.countDown put n = put s (n - 1) := by
  cases n with
  | zero => omega
  | succ n => rfl

/-! ## Timers -/

/-- What a periodic timer's sub-step can do (40_timing_service.md R60). -/
theorem periodicTimer_cases (en : Bool) (cnt : Nat) (put : State → Nat → State) (handler : State → State)
    (period : State → Nat) (s : State) :
    (en = false ∧ periodicTimer en cnt put handler period s = s) ∨
    (en = true ∧ cnt = 1 ∧
      periodicTimer en cnt put handler period s = (handler s).andThen fun t => put t (period t)) ∨
    (en = true ∧ cnt ≠ 1 ∧ periodicTimer en cnt put handler period s = s.countDown put cnt) := by
  cases en with
  | false => exact .inl ⟨rfl, rfl⟩
  | true =>
    by_cases h : cnt = 1
    · exact .inr (.inl ⟨rfl, h, by simp [periodicTimer, h]⟩)
    · exact .inr (.inr ⟨rfl, h, by simp [periodicTimer, h]⟩)

/-- What a one-shot's sub-step can do (R62, R65). -/
theorem oneShot_cases (armed : Bool) (cnt last : Nat) (put : State → Nat → State) (handler : State → State)
    (s : State) :
    (armed = false ∧ oneShot armed cnt last put handler s = s) ∨
    (armed = true ∧ cnt = last ∧ oneShot armed cnt last put handler s = handler s) ∨
    (armed = true ∧ cnt ≠ last ∧ oneShot armed cnt last put handler s = s.countDown put cnt) := by
  cases armed with
  | false => exact .inl ⟨rfl, rfl⟩
  | true =>
    by_cases h : cnt = last
    · exact .inr (.inl ⟨rfl, h, by simp [oneShot, h]⟩)
    · exact .inr (.inr ⟨rfl, h, by simp [oneShot, h]⟩)

/-! ## Storage -/

theorem rawIndex_of_lt {p : Nat} (h : p < 8) : rawIndex p = some ⟨p, h⟩ := by simp [rawIndex, h]

theorem rawIndex_of_le {p : Nat} (h : 8 ≤ p) : rawIndex p = none := by simp [rawIndex, show ¬ p < 8 by omega]

theorem accSlot_of_mem {b : Nat} (h : 3 ≤ b ∧ b ≤ 8) : accSlot b = some ⟨b - 3, by omega⟩ := by simp [accSlot, h]

theorem accSlot_of_not {b : Nat} (h : ¬ (3 ≤ b ∧ b ≤ 8)) : accSlot b = none := by simp only [accSlot, dif_neg h]

/-- Bits 7 and 6 of a latched byte are 1 (41_mux_engine.md R73). -/
theorem rawByte_high (l : Lines) : rawByte l &&& 0xC0 = 0xC0 := by
  revert l; decide

theorem rawByte_or_high (l : Lines) : rawByte l ||| 0xC0 = rawByte l := by
  revert l; decide

/-- Reading the raw table after a latch: the new byte at the latched index, both ports, and the old one elsewhere. -/
theorem State.readRaw_latchRaw (s : State) (p q : Fin 8) (l0 l1 : Lines) (c : Fin 2) :
    (s.latchRaw p l0 l1).readRaw c q = if q = p then rawByte (if c = 0 then l0 else l1) else s.readRaw c q := by
  have hc : c = 0 ∨ c = 1 := by omega
  by_cases h : q = p
  · subst h
    rcases hc with rfl | rfl <;> simp [State.readRaw, State.latchRaw] <;> exact rawByte_or_high _
  · have hv : ¬ p.val = q.val := fun e => h (Fin.ext e.symm)
    rcases hc with rfl | rfl <;>
      simp [State.readRaw, State.latchRaw, h, hv]

/-! ## Builds -/

/-- All that a build does with the new report (44_report_formatter.md R101 to R104). -/
theorem State.build_eq (s : State) (new : Report) : s.build new =
    { s with
      rpt := new, sampleComplete := false, sendPending := s.sendPending || decide (new ≠ s.rpt) } := by
  unfold State.build State.noteChange
  split <;> simp_all [State.memWriteReport, State.clearComplete]

/-- The axis byte of a direction pair, by its cases (R98). -/
theorem axis_eq_directionByte (neg pos : Bool) : axis neg pos = directionByte neg pos := by
  cases neg <;> cases pos <;> rfl

end Sys2Proof.Machine
end

