-- ==== Sys2Proof/Laws/Params.lean ====
section
/-! SUPPORT. What a legal parameter record gives, by name (00_scope.md R4, R5). -/

namespace Sys2Proof

variable {p : Params}

theorem Params.Legal.settle (h : p.Legal) : p.tSettle < p.tPoll := h.1
theorem Params.Legal.watchdog (h : p.Legal) : 9 * p.eByte * p.tHalf < p.tWd := h.2.1
theorem Params.Legal.chord (h : p.Legal) : p.chordMask ≠ 0 := h.2.2.1
theorem Params.Legal.perm (h : p.Legal) : p.serialPerm.Bijective := h.2.2.2.1
theorem Params.Legal.inRange (h : p.Legal) : p.InRange := h.2.2.2.2
theorem Params.Legal.tbHz (h : p.Legal) : 1 ≤ p.tbHz := h.inRange.1
theorem Params.Legal.tPoll (h : p.Legal) : 1 ≤ p.tPoll ∧ p.tPoll ≤ 65535 := h.inRange.2.1
theorem Params.Legal.tGap (h : p.Legal) : 1 ≤ p.tGap ∧ p.tGap ≤ 65535 := h.inRange.2.2.1
theorem Params.Legal.tSettle (h : p.Legal) : p.tSettle ≤ 65535 := h.inRange.2.2.2.1
theorem Params.Legal.tHalf (h : p.Legal) : 1 ≤ p.tHalf ∧ p.tHalf ≤ 65535 := h.inRange.2.2.2.2.1
theorem Params.Legal.eByte (h : p.Legal) : 18 ≤ p.eByte ∧ p.eByte ≤ 255 := h.inRange.2.2.2.2.2.1
theorem Params.Legal.txnGap (h : p.Legal) : p.txnGap ≤ 255 := h.inRange.2.2.2.2.2.2.1
theorem Params.Legal.tWd (h : p.Legal) : 1 ≤ p.tWd ∧ p.tWd ≤ 65535 := h.inRange.2.2.2.2.2.2.2.1
theorem Params.Legal.tIdle (h : p.Legal) : 1 ≤ p.tIdle ∧ p.tIdle ≤ 65535 := h.inRange.2.2.2.2.2.2.2.2

/-- The defaults of R4 are legal. -/
theorem Params.default_legal : Params.default.Legal := by decide

end Sys2Proof
end

