-- ==== Sys2Proof/Laws/Invariant.lean ====
section
/-! SUPPORT. How the invariant of Safety.lean passes through the sub-steps of a step. `State.Mid early k` is the invariant as
it stands inside a step: before S5 (`early`) a multiplexed sample set is never complete, later it may be, at phase 8; and a due
latch has `k` steps to spare before the next poll tick. -/

namespace Sys2Proof.Machine

/-- The invariant inside a step. -/
structure State.Mid (early : Bool) (k : Nat) (s : State) : Prop where
  legal : s.params.Legal
  noFault : s.fault = none
  modeLegal : s.mode ≠ .three
  serEnIff : s.serEn = true ↔ s.mode = .serial
  serOeIff : s.serOe = true ↔ s.mode = .serial
  ptEnIff : s.ptEn = false ↔ s.mode = .serial
  selOeIff : s.selOe = false ↔ s.mode = .serial
  completeAt : s.sampleComplete = true → s.mode ≠ .serial → early = false ∧ s.phase = 8
  gapIdle : s.serPhase = .gap →
    s.byteIdx = 0 ∧ s.edgeIdx = 0 ∧ s.wdArmed = false ∧ s.att = true ∧ s.clk = true ∧ s.cmd = true
  activeAtt : s.serPhase = .active → s.att = false ∨ (s.byteIdx = 8 ∧ 18 ≤ s.edgeIdx)
  axes : s.mode ≠ .serial → axisLegal s.rpt.x1 ∧ axisLegal s.rpt.y1 ∧ axisLegal s.rpt.x2 ∧ axisLegal s.rpt.y2
  latchDue : s.needSample = true → s.phase ≤ 7
  range : s.InRange
  latchInTime : s.needSample = true → s.stCnt + k < s.ptCnt
  latchMux : s.needSample = true → s.mode ≠ .serial
  serialPhase : s.mode = .serial → s.phase = 8
  packetPeriod : s.phase ≤ 7 → s.ptPeriod = s.params.tPoll
  selectLevel : s.sel = (s.params.selIdle ^^ decide (s.phase % 2 = 1))
  activeSerial : s.serPhase = .active → s.mode = .serial ∧ s.wdArmed = true
  armedCount : s.wdArmed = true → 1 ≤ s.wdCnt
  idleBelowRate : s.idleElapsed = false → s.idleRate ≠ 0 → s.idleCnt < s.idleRate.toNat
  rawHigh : ∀ (c : Fin 2) (p : Fin 8), s.raw[c][p] &&& 0xC0 = 0xC0

variable {s : State} {early : Bool} {k : Nat}

theorem State.Inv.mid (h : s.Inv) : s.Mid true 1 where
  legal := h.legal
  noFault := h.noFault
  modeLegal := h.modeLegal
  serEnIff := h.serEnIff
  serOeIff := h.serOeIff
  ptEnIff := h.ptEnIff
  selOeIff := h.selOeIff
  completeAt := by simp [h.consumed]
  gapIdle := h.gapIdle
  activeAtt := h.activeAtt
  axes := h.axes
  latchDue := fun hn => (h.latchDue hn).1
  range := h.range
  latchInTime := h.latchInTime
  latchMux := h.latchMux
  serialPhase := h.serialPhase
  packetPeriod := h.packetPeriod
  selectLevel := h.selectLevel
  activeSerial := h.activeSerial
  armedCount := h.armedCount
  idleBelowRate := h.idleBelowRate
  rawHigh := h.rawHigh

theorem State.Mid.inv (h : s.Mid early 1) (hc : s.sampleComplete = false) : s.Inv where
  legal := h.legal
  noFault := h.noFault
  modeLegal := h.modeLegal
  oneEngine := by
    have h1 := h.serEnIff
    have h2 := h.ptEnIff
    rintro ⟨hp, hs⟩
    have := h2.mpr (h1.mp hs)
    simp [hp] at this
  serEnIff := h.serEnIff
  serOeIff := h.serOeIff
  ptEnIff := h.ptEnIff
  selOeIff := h.selOeIff
  consumed := hc
  gapIdle := h.gapIdle
  activeAtt := h.activeAtt
  axes := h.axes
  latchDue := fun hn => ⟨h.latchDue hn, h.range.stCnt⟩
  range := h.range
  latchInTime := h.latchInTime
  latchMux := h.latchMux
  serialPhase := h.serialPhase
  packetPeriod := h.packetPeriod
  selectLevel := h.selectLevel
  activeSerial := h.activeSerial
  armedCount := h.armedCount
  idleBelowRate := h.idleBelowRate
  rawHigh := h.rawHigh

/-! ## Updates that a sub-step makes -/

/-- What Mid does not speak of may change. -/
theorem State.Mid.congr {t : State} (h : s.Mid early k)
    (e : t = { s with pins := t.pins, tx := t.tx, resp := t.resp, trace := t.trace, inputs := t.inputs, seq := t.seq,
                      sendPending := t.sendPending, acc := t.acc }) : t.Mid early k := by
  rw [e]
  exact ⟨h.1, h.2, h.3, h.4, h.5, h.6, h.7, h.8, h.9, h.10, h.11, h.12,
    ⟨h.13.1, h.13.2, h.13.3, h.13.4, h.13.5, h.13.6, h.13.7, h.13.8, h.13.9, h.13.10, h.13.11, h.13.12, h.13.13, h.13.14⟩,
    h.14, h.15, h.16, h.17, h.18, h.19, h.20, h.21, h.22⟩

theorem State.Mid.emit (h : s.Mid early k) (c : Byte) : (s.emit c).Mid early k := h.congr rfl

theorem State.Mid.beginStep (h : s.Mid early k) (st : Stim) : (s.beginStep st).Mid early k := h.congr rfl

theorem State.Mid.takeWord (h : s.Mid early k) : s.takeWord.Mid early k := h.congr rfl

/-- The idle fields may change within their ranges. -/
theorem State.Mid.idle {rate : Byte} {cnt it : Nat} {el : Bool} (h : s.Mid early k) (hc : cnt ≤ 255)
    (hi : 1 ≤ it ∧ it ≤ s.params.tIdle) (hr : el = false → rate ≠ 0 → cnt < rate.toNat) :
    { s with idleRate := rate, idleCnt := cnt, idleElapsed := el, itCnt := it }.Mid early k :=
  ⟨h.1, h.2, h.3, h.4, h.5, h.6, h.7, h.8, h.9, h.10, h.11, h.12,
    ⟨h.13.1, h.13.2, h.13.3, h.13.4, h.13.5, h.13.6, h.13.7, h.13.8, h.13.9, h.13.10, h.13.11, hc, hi.1, hi.2⟩,
    h.14, h.15, h.16, h.17, h.18, h.19, h.20, hr, h.22⟩

theorem restart_below_rate (rate : Byte) (h : rate ≠ 0) : 0 < rate.toNat := by
  rcases Nat.eq_zero_or_pos rate.toNat with h0 | h0
  · exact absurd (BitVec.eq_of_toNat_eq (by simpa using h0)) h
  · exact h0

/-! ## S1: the host request -/

theorem subRequest_mid (h : s.Mid early 1) : (subRequest s).Mid early 1 := by
  unfold subRequest
  split
  · cases hr : s.pins.request with
    | getReport => exact h.congr rfl
    | getIdle => exact h.congr rfl
    | setIdle rate =>
      have hm := h.idle (rate := rate) (cnt := 0) (it := s.itCnt) (el := false) (by omega)
        ⟨h.range.itCntPos, h.range.itCnt⟩ (fun _ => restart_below_rate rate)
      exact hm.congr rfl
    | unhandled rqt rq => exact h.congr rfl
  · exact h

/-! ## S2: the idle timer -/

theorem opIdleTick_mid (h : s.Mid early 1) : (opIdleTick s).Mid early 1 := by
  unfold opIdleTick
  split
  · rename_i hc
    have hlt := h.idleBelowRate hc.2 hc.1
    have hb := s.idleRate.isLt
    unfold State.countIdle
    rw [State.putIdleCnt_of_le (by simp; omega), State.andThen_of_noFault (by simp [h.noFault])]
    split
    · rename_i hge
      exact (h.idle (rate := s.idleRate) (cnt := s.idleCnt + 1) (it := s.itCnt) (el := true) (by omega)
        ⟨h.range.itCntPos, h.range.itCnt⟩ (by simp)).congr rfl
    · rename_i hge
      simp at hge
      exact (h.idle (rate := s.idleRate) (cnt := s.idleCnt + 1) (it := s.itCnt) (el := s.idleElapsed) (by omega)
        ⟨h.range.itCntPos, h.range.itCnt⟩ (fun _ _ => by omega)).congr rfl
  · exact h.emit _

theorem State.Mid.putItCnt {v : Nat} (h : s.Mid early k) (hv : 1 ≤ v ∧ v ≤ s.params.tIdle) : (s.putItCnt v).Mid early k := by
  rw [State.putItCnt_of_mem hv]
  exact h.idle (rate := s.idleRate) (cnt := s.idleCnt) (it := v) (el := s.idleElapsed) h.range.idleCnt hv
    h.idleBelowRate

theorem subIdleTimer_mid (h : s.Mid early 1) : (subIdleTimer s).Mid early 1 := by
  unfold subIdleTimer
  rcases periodicTimer_cases true s.itCnt State.putItCnt opIdleTick (fun t => t.params.tIdle) s with
    ⟨he, -⟩ | ⟨-, -, e⟩ | ⟨-, hne, e⟩
  · simp at he
  · rw [e]
    have hm := opIdleTick_mid h
    rw [State.andThen_of_noFault hm.noFault]
    exact hm.putItCnt ⟨hm.legal.tIdle.1, le_refl _⟩
  · rw [e, State.countDown_of_pos _ h.range.itCntPos]
    have := h.range.itCntPos
    have := h.range.itCnt
    exact h.putItCnt ⟨by omega, by omega⟩

/-! ## S3: the watchdog -/

/-- The state that a completion and the watchdog's expiry leave: idle lines, GAP, indices 0. -/
theorem State.Mid.toGap (h : s.Mid early k) {c : Bool} (hc : c = true → s.mode ≠ .serial → early = false ∧ s.phase = 8) :
    { s.enterGap.idleLines.disarmWatchdog with sampleComplete := c }.Mid early k := by
  have he := h.legal.eByte
  simp
  exact ⟨h.1, h.2, h.3, h.4, h.5, h.6, h.7, hc, by simp, by simp, h.11, h.12,
    ⟨h.13.1, h.13.2, h.13.3, h.13.4, h.13.5, le_refl _, by simp, by simp; omega, h.13.9, h.13.10, by simp,
      h.13.12, h.13.13, h.13.14⟩,
    h.14, h.15, h.16, h.17, h.18, by simp, by simp, h.21, h.22⟩

theorem opWdogExpire_mid (h : s.Mid early k) : (opWdogExpire s).Mid early k := by
  have := (h.toGap (c := s.sampleComplete) h.completeAt)
  exact this.congr rfl

theorem subWatchdog_mid (h : s.Mid early 1) : (subWatchdog s).Mid early 1 := by
  unfold subWatchdog
  rcases oneShot_cases s.wdArmed s.wdCnt 1 State.putWdCnt opWdogExpire s with ⟨-, e⟩ | ⟨-, -, e⟩ | ⟨ha, hne, e⟩
  · rw [e]; exact h
  · rw [e]; exact opWdogExpire_mid h
  · have h1 := h.armedCount ha
    have h2 := h.range.wdCnt
    rw [e, State.countDown_of_pos _ h1, State.putWdCnt_of_le (by omega)]
    exact ⟨h.1, h.2, h.3, h.4, h.5, h.6, h.7, h.8, h.9, h.10, h.11, h.12,
      ⟨h.13.1, h.13.2, h.13.3, h.13.4, h.13.5, h.13.6, h.13.7, h.13.8, h.13.9, h.13.10, by simp; omega, h.13.12,
        h.13.13, h.13.14⟩,
      h.14, h.15, h.16, h.17, h.18, h.19, by simp; omega, h.21, h.22⟩


/-! ## S4: the serial timer -/

theorem State.Mid.putScCnt {v : Nat} (h : s.Mid early k) (hv : 1 ≤ v ∧ v ≤ s.params.tHalf) : (s.putScCnt v).Mid early k := by
  rw [State.putScCnt_of_mem hv]
  exact ⟨h.1, h.2, h.3, h.4, h.5, h.6, h.7, h.8, h.9, h.10, h.11, h.12,
    ⟨h.13.1, h.13.2, h.13.3, h.13.4, h.13.5, h.13.6, h.13.7, h.13.8, hv.1, hv.2, h.13.11, h.13.12,
      h.13.13, h.13.14⟩,
    h.14, h.15, h.16, h.17, h.18, h.19, h.20, h.21, h.22⟩

theorem opSerGap_mid (h : s.Mid early k) (hg : 0 < s.gapCnt) : (opSerGap s).Mid early k := by
  have hr := h.range.gapCnt
  unfold opSerGap
  rw [State.countDown_of_pos _ (by omega), State.putGapCnt_of_le (by omega),
    State.andThen_of_noFault (by simp [h.noFault])]
  exact ⟨h.1, h.2, h.3, h.4, h.5, h.6, h.7, h.8, h.9, h.10, h.11, h.12,
    ⟨h.13.1, h.13.2, h.13.3, h.13.4, h.13.5, by simp; omega, h.13.7, h.13.8, h.13.9, h.13.10, h.13.11, h.13.12,
      h.13.13, h.13.14⟩,
    h.14, h.15, h.16, h.17, h.18, h.19, h.20, h.21, h.22⟩

theorem opSerStart_mid (h : s.Mid early k) (hm : s.mode = .serial) : (opSerStart s).Mid early k := by
  have he := h.legal.eByte
  have hw := h.legal.tWd
  unfold opSerStart
  simp
  exact ⟨h.1, h.2, h.3, h.4, h.5, h.6, h.7, h.8, by simp, by simp, h.11, h.12,
    ⟨h.13.1, h.13.2, h.13.3, h.13.4, h.13.5, h.13.6, by simp, by simp; omega, h.13.9, h.13.10, by simp, h.13.12,
      h.13.13, h.13.14⟩,
    h.14, h.15, h.16, h.17, h.18, by simp [hm], by simp; omega, h.21, h.22⟩

theorem opSerComplete_mid (h : s.Mid early k) (hm : s.mode = .serial) : (opSerComplete s).Mid early k := by
  have := (h.toGap (c := true) (by simp [hm]))
  exact this.congr rfl

/-- While a transaction is in progress, the position may move as long as attention is released only at the end of
byte 8. -/
theorem State.Mid.edge {b e : Nat} {a c d : Bool} (h : s.Mid early k) (hp : s.serPhase = .active) (hb : b ≤ 8)
    (he : e < s.params.eByte) (ha : a = false ∨ (b = 8 ∧ 18 ≤ e)) :
    { s with byteIdx := b, edgeIdx := e, att := a, clk := c, cmd := d }.Mid early k :=
  ⟨h.1, h.2, h.3, h.4, h.5, h.6, h.7, h.8, by simp [hp], fun _ => ha, h.11, h.12,
    ⟨h.13.1, h.13.2, h.13.3, h.13.4, h.13.5, h.13.6, hb, he, h.13.9, h.13.10, h.13.11, h.13.12,
      h.13.13, h.13.14⟩,
    h.14, h.15, h.16, h.17, h.18, h.19, h.20, h.21, h.22⟩

theorem edgeClock_eq (e : Nat) (s : State) :
    edgeClock e s = { s with clk := if e < 16 then e % 2 == 1 else s.clk } := by
  unfold edgeClock; split <;> rfl

/-- The accumulator after action (2) of an edge (42_serial_engine.md R81). -/
def edgeAcc (b e : Nat) (s : State) : Vector Byte 6 :=
  if e < 16 ∧ e % 2 = 1 then
    match accSlot b with
    | some i => s.acc.set i (shiftIn s.acc[i] s.pins.dat)
    | none => s.acc
  else s.acc

theorem edgeShift_eq (b e : Nat) (s : State) : edgeShift b e s = { s with acc := edgeAcc b e s } := by
  unfold edgeShift edgeAcc; split
  · cases accSlot b <;> rfl
  · rfl

theorem edgeDataOut_eq (b e : Nat) (s : State) :
    edgeDataOut b e s =
      { s with cmd := if e < 16 ∧ e % 2 = 0 then cmdBit b (e / 2) else if e = 16 then true else s.cmd } := by
  unfold edgeDataOut; split
  · rfl
  · split <;> rfl

theorem edgeAttention_eq (b e : Nat) (s : State) :
    edgeAttention b e s = { s with att := if b = 8 ∧ e = 17 then true else s.att } := by
  unfold edgeAttention; split <;> rfl

/-- The four actions of an edge (R80 to R83) as one update. -/
theorem edge_actions (s : State) (b e : Nat) :
    edgeAttention b e (edgeDataOut b e (edgeShift b e (edgeClock e (s.emit 0x12)))) =
      { s with
        trace := s.trace ++ [0x12]
        clk := if e < 16 then e % 2 == 1 else s.clk
        acc := edgeAcc b e s
        cmd := if e < 16 ∧ e % 2 = 0 then cmdBit b (e / 2) else if e = 16 then true else s.cmd
        att := if b = 8 ∧ e = 17 then true else s.att } := by
  rw [edgeAttention_eq, edgeDataOut_eq, edgeShift_eq, edgeClock_eq]; rfl

theorem opSerEdge_mid (h : s.Mid early k) (hp : s.serPhase = .active) : (opSerEdge s).Mid early k := by
  have hb := h.range.byteIdx
  have he := h.range.edgeIdx
  have hm := (h.activeSerial hp).1
  have hat := h.activeAtt hp
  have hE := h.legal.eByte
  unfold opSerEdge
  rw [if_pos ⟨hb, he⟩]
  rw [edge_actions]
  generalize hat' : (if s.byteIdx = 8 ∧ s.edgeIdx = 17 then true else s.att) = a
  generalize (if s.edgeIdx < 16 then s.edgeIdx % 2 == 1 else s.clk) = c
  generalize (if s.edgeIdx < 16 ∧ s.edgeIdx % 2 = 0 then cmdBit s.byteIdx (s.edgeIdx / 2)
    else if s.edgeIdx = 16 then true else s.cmd) = d
  unfold edgeAdvance
  by_cases hlast : s.edgeIdx + 1 = s.params.eByte
  · rw [if_pos hlast]
    by_cases h9 : s.byteIdx + 1 = 9
    · rw [if_pos h9]
      exact (h.toGap (c := true) (by simp [hm])).congr rfl
    · rw [if_neg h9, State.putByteIdx_of_le (by omega), State.andThen_of_noFault (by exact h.noFault),
        State.putEdgeIdx_of_lt (by show 0 < s.params.eByte; omega)]
      refine (h.edge (b := s.byteIdx + 1) (e := 0) (a := a) (c := c) (d := d) hp (by omega) (by omega)
        (.inl ?_)).congr rfl
      rw [if_neg (by omega)] at hat'
      rcases hat with h0 | ⟨h8, -⟩
      · exact hat' ▸ h0
      · omega
  · rw [if_neg hlast, State.putEdgeIdx_of_lt (by show s.edgeIdx + 1 < s.params.eByte; omega)]
    refine (h.edge (b := s.byteIdx) (e := s.edgeIdx + 1) (a := a) (c := c) (d := d) hp hb (by omega) ?_).congr rfl
    rw [← hat']
    split
    · exact .inr ⟨by omega, by omega⟩
    · exact hat.imp id fun h8 => ⟨h8.1, by omega⟩

theorem opSerTick_mid (h : s.Mid early k) (hm : s.mode = .serial) : (opSerTick s).Mid early k := by
  unfold opSerTick
  cases hp : s.serPhase with
  | gap =>
    simp only []
    split
    · exact opSerGap_mid h ‹_›
    · exact opSerStart_mid h hm
  | active => exact opSerEdge_mid h hp

theorem subSerialTimer_mid (h : s.Mid early k) : (subSerialTimer s).Mid early k := by
  unfold subSerialTimer
  rcases periodicTimer_cases (s.serEn && !s.pins.hold) s.scCnt State.putScCnt opSerTick (fun t => t.params.tHalf) s with
    ⟨-, e⟩ | ⟨hen, -, e⟩ | ⟨-, hne, e⟩
  · rw [e]; exact h
  · have hm : s.mode = .serial := h.serEnIff.mp (by simp at hen; exact hen.1)
    have ht := opSerTick_mid h hm
    rw [e, State.andThen_of_noFault ht.noFault]
    exact ht.putScCnt ⟨ht.legal.tHalf.1, le_refl _⟩
  · have h1 := h.range.scCntPos
    have h2 := h.range.scCnt
    rw [e, State.countDown_of_pos _ h1]
    exact h.putScCnt ⟨by omega, by omega⟩

/-! ## S5: the poll timer -/

theorem subPollTimer_mid (h : s.Mid true 1) : (subPollTimer s).Mid false 0 := by
  have hP := h.legal.tPoll
  have hG := h.legal.tGap
  have hS := h.legal.settle
  have hph := h.range.phase
  unfold subPollTimer
  rcases periodicTimer_cases s.ptEn s.ptCnt State.putPtCnt opPollTick (fun t => t.ptPeriod) s with
    ⟨hen, e⟩ | ⟨hen, h1, e⟩ | ⟨hen, hne, e⟩
  · rw [e]
    have hm := h.ptEnIff.mp hen
    exact ⟨h.1, h.2, h.3, h.4, h.5, h.6, h.7, fun a b => by simpa using h.completeAt a b, h.9, h.10, h.11, h.12, h.13,
      fun hn => absurd hm (h.latchMux hn), h.15, h.16, h.17, h.18, h.19, h.20, h.21, h.22⟩
  · have hms : s.mode ≠ .serial := fun hm => by have := h.ptEnIff.mpr hm; simp [hen] at this
    have hns : s.needSample = false := by
      cases hn : s.needSample with
      | false => rfl
      | true => have := h.latchInTime hn; omega
    have hsel := h.selectLevel
    rw [e]
    unfold opPollTick
    rcases (by omega : s.phase ≤ 6 ∨ s.phase = 7 ∨ s.phase = 8) with h6 | h7 | h8
    · rw [if_pos h6]
      have hper := h.packetPeriod (by omega)
      unfold opPollAdvance
      rw [State.putPhase_of_le (by omega)]
      simp only [State.andThen, h.noFault, State.armLatch, State.emit]
      rw [State.putPtCnt_of_mem (by omega)]
      refine ⟨h.1, rfl, h.3, h.4, h.5, h.6, h.7, ?_, h.9, h.10, h.11, by simp; omega,
        ⟨by simp; omega, by simp, h.13.3, by simp; omega, by simp; omega, h.13.6, h.13.7, h.13.8, h.13.9, h.13.10,
          h.13.11, h.13.12, h.13.13, h.13.14⟩,
        by simp; omega, by simpa using hms, by simp [hms], by simp; omega, ?_, h.19, h.20, h.21, h.22⟩
      · exact fun hc hm => by simpa using h.completeAt hc hm
      · simp only [hsel]
        rcases Nat.mod_two_eq_zero_or_one s.phase with hz | hz
        · have : (s.phase + 1) % 2 = 1 := by omega
          simp [hz, this]
        · have : (s.phase + 1) % 2 = 0 := by omega
          simp [hz, this]
    · rw [if_neg (by omega), if_pos h7]
      simp only [opPollFinish, State.andThen, h.noFault, State.markComplete, State.emit]
      rw [State.putPtCnt_of_mem (by omega)]
      exact ⟨h.1, rfl, h.3, h.4, h.5, h.6, h.7, by simp, h.9, h.10, h.11, by simp [hns],
        ⟨by simp, h.13.2, by simp, by simp; omega, by simp; omega, h.13.6, h.13.7, h.13.8, h.13.9, h.13.10,
          h.13.11, h.13.12, h.13.13, h.13.14⟩,
        by simp [hns], by simp [hns], by simp, by simp, by simp, h.19, h.20, h.21, h.22⟩
    · rw [if_neg (by omega), if_neg (by omega), if_pos h8]
      simp only [opPollRestart, State.andThen, h.noFault, State.armLatch, State.emit]
      rw [State.putPtCnt_of_mem (by omega)]
      refine ⟨h.1, rfl, h.3, h.4, h.5, h.6, h.7, ?_, h.9, h.10, h.11, by simp,
        ⟨by simp, by simp, by simp, by simp; omega, by simp; omega, h.13.6, h.13.7, h.13.8, h.13.9, h.13.10,
          h.13.11, h.13.12, h.13.13, h.13.14⟩,
        by simp; omega, by simpa using hms, by simp [hms], by simp, ?_, h.19, h.20, h.21, h.22⟩
      · exact fun hc hm => by simpa using h.completeAt hc hm
      · simpa [h8] using hsel
  · have h1 := h.range.ptCntPos
    have h2 := h.range.ptCnt
    rw [e, State.countDown_of_pos _ h1, State.putPtCnt_of_mem (by omega)]
    exact ⟨h.1, h.2, h.3, h.4, h.5, h.6, h.7, fun a b => by simpa using h.completeAt a b, h.9, h.10, h.11, h.12,
      ⟨h.13.1, h.13.2, h.13.3, by simp; omega, by simp; omega, h.13.6, h.13.7, h.13.8, h.13.9, h.13.10,
        h.13.11, h.13.12, h.13.13, h.13.14⟩,
      fun hn => by have := h.latchInTime hn; simp; omega, h.15, h.16, h.17, h.18, h.19, h.20, h.21, h.22⟩

/-! ## S6: the settle one-shot -/

/-- A latch keeps bits 7 and 6 of every raw byte at 1. -/
theorem latchRaw_high (h : ∀ (c : Fin 2) (p : Fin 8), s.raw[c][p] &&& 0xC0 = 0xC0) (i : Fin 8) (l0 l1 : Lines)
    (c : Fin 2) (p : Fin 8) : (s.latchRaw i l0 l1).raw[c][p] &&& 0xC0 = 0xC0 := by
  have hc : c = 0 ∨ c = 1 := by omega
  have h0 := h 0 p
  have h1 := h 1 p
  by_cases hp : p = i
  · subst hp
    rcases hc with rfl | rfl <;> simp [State.latchRaw] <;> exact rawByte_high _
  · have hv : ¬ i.val = p.val := fun e => hp (Fin.ext e.symm)
    rcases hc with rfl | rfl <;> simp_all [State.latchRaw]

theorem subSettle_mid (h : s.Mid false 0) : (subSettle s).Mid false 1 := by
  unfold subSettle
  rcases oneShot_cases s.needSample s.stCnt 0 State.putStCnt opSampleLatch s with ⟨hn, e⟩ | ⟨hn, -, e⟩ | ⟨hn, hne, e⟩
  · rw [e]
    exact ⟨h.1, h.2, h.3, h.4, h.5, h.6, h.7, h.8, h.9, h.10, h.11, h.12, h.13, by simp [hn], h.15, h.16, h.17, h.18,
      h.19, h.20, h.21, h.22⟩
  · have hph := h.latchDue hn
    rw [e]
    unfold opSampleLatch
    rw [rawIndex_of_lt (by omega)]
    exact ⟨h.1, h.2, h.3, h.4, h.5, h.6, h.7, h.8, h.9, h.10, h.11, by simp [State.clearNeedSample],
      ⟨h.13.1, h.13.2, h.13.3, h.13.4, h.13.5, h.13.6, h.13.7, h.13.8, h.13.9, h.13.10, h.13.11, h.13.12,
        h.13.13, h.13.14⟩,
      by simp [State.clearNeedSample], by simp [State.clearNeedSample], h.16, h.17, h.18, h.19, h.20, h.21,
      latchRaw_high h.22 _ _ _⟩
  · have h1 := h.latchInTime hn
    have h2 := h.range.stCnt
    rw [e, State.countDown_of_pos _ (by omega), State.putStCnt_of_le (by omega)]
    exact ⟨h.1, h.2, h.3, h.4, h.5, h.6, h.7, h.8, h.9, h.10, h.11, h.12,
      ⟨h.13.1, by simp; omega, h.13.3, h.13.4, h.13.5, h.13.6, h.13.7, h.13.8, h.13.9, h.13.10,
        h.13.11, h.13.12, h.13.13, h.13.14⟩,
      fun _ => by simp; omega, h.15, h.16, h.17, h.18, h.19, h.20, h.21, h.22⟩

/-! ## S7: arbitration -/

/-- The record that SELECT_SERIAL leaves (43_mode_arbiter.md R95). -/
theorem selectSerial_eq (s : State) : selectSerial s =
    { s with
      mode := .serial, ptEn := false, needSample := false, selOe := false, sampleComplete := false
      serEn := true, scCnt := s.params.tHalf, serPhase := .gap, gapCnt := s.params.txnGap
      byteIdx := 0, edgeIdx := 0, acc := Vector.replicate 6 0x00, serOe := true, att := true, clk := true, cmd := true
      wdArmed := false, wdCnt := 0 } := rfl

theorem selectSerial_mid (h : s.Mid early k) (hp : s.phase = 8) : (selectSerial s).Mid early k := by
  have hE := h.legal.eByte
  have hT := h.legal.tHalf
  rw [selectSerial_eq]
  exact ⟨h.1, h.2, by simp, by simp, by simp, by simp, by simp, by simp, by simp, by simp, by simp, by simp,
    ⟨h.13.1, h.13.2, h.13.3, h.13.4, h.13.5, le_refl _, by simp, by simp; omega, hT.1, le_refl _, by simp, h.13.12,
      h.13.13, h.13.14⟩, by simp, by simp, by simp [hp], h.17, h.18, by simp, by simp, h.21, h.22⟩

theorem selectMux_mid (h : s.Mid early k) (hm : s.mode = .undecided) : (selectMux s).Mid early k := by
  have h4 := h.4
  have h5 := h.5
  have h6 := h.6
  have h7 := h.7
  have h8 := h.8
  have h19 := h.19
  rw [hm] at h4 h5 h6 h7 h8 h19
  unfold selectMux
  exact ⟨h.1, h.2, by simp, by simpa using h4, by simpa using h5, by simpa using h6, by simpa using h7,
    fun hc _ => h8 hc (by simp), h.9, h.10, fun _ => h.axes (by simp [hm]), h.12,
    ⟨h.13.1, h.13.2, h.13.3, h.13.4, h.13.5, h.13.6, h.13.7, h.13.8, h.13.9, h.13.10, h.13.11, h.13.12,
      h.13.13, h.13.14⟩, h.14, by simp, by simp, h.17, h.18, fun ha => by simpa using (h19 ha).1, h.20, h.21, h.22⟩

/-- After S7 no sample set waits while the mode is undecided. -/
theorem subArbitrate_mid (h : s.Mid false k) :
    (subArbitrate s).Mid false k ∧ ((subArbitrate s).sampleComplete = true → (subArbitrate s).mode ≠ .undecided) := by
  unfold subArbitrate
  cases hm : s.mode with
  | mux => exact ⟨h, by simp [hm]⟩
  | serial => exact ⟨h, by simp [hm]⟩
  | three => exact absurd hm h.modeLegal
  | undecided =>
    simp only []
    split
    · rename_i hc
      have hp := (h.completeAt hc (by simp [hm])).2
      unfold opArbitrate
      split
      · exact ⟨selectSerial_mid (h.emit 0x30) hp, by rw [selectSerial_eq]; simp⟩
      · exact ⟨selectMux_mid (h.emit 0x30) hm, by simp [selectMux]⟩
    · rename_i hc
      exact ⟨h, fun h' => absurd h' hc⟩

/-! ## S8: the report build -/

theorem axis_legal (n p : Bool) : axisLegal (axis n p) := by
  cases n <;> cases p <;> simp [axis, axisLegal]

theorem State.build_mid (h : s.Mid early k) (r : Report)
    (hr : s.mode ≠ .serial → axisLegal r.x1 ∧ axisLegal r.y1 ∧ axisLegal r.x2 ∧ axisLegal r.y2) :
    (s.build r).Mid early k ∧ (s.build r).sampleComplete = false := by
  refine ⟨?_, rfl⟩
  have e : s.build r = { s with rpt := r, sampleComplete := false, sendPending := (s.build r).sendPending } := by
    unfold State.build State.noteChange; split <;> rfl
  rw [e]
  exact ⟨h.1, h.2, h.3, h.4, h.5, h.6, h.7, by simp, h.9, h.10, hr, h.12,
    ⟨h.13.1, h.13.2, h.13.3, h.13.4, h.13.5, h.13.6, h.13.7, h.13.8, h.13.9, h.13.10, h.13.11, h.13.12, h.13.13, h.13.14⟩,
    h.14, h.15, h.16, h.17, h.18, h.19, h.20, h.21, h.22⟩

theorem subBuild_mid (h : s.Mid false 1) (hd : s.sampleComplete = true → s.mode ≠ .undecided) :
    (subBuild s).Mid false 1 ∧ (subBuild s).sampleComplete = false := by
  unfold subBuild
  split
  · rename_i hc
    cases hm : s.mode with
    | undecided => exact absurd hm (hd hc)
    | three => exact absurd hm h.modeLegal
    | mux =>
      have := State.build_mid h s.muxReport (fun _ => ⟨axis_legal _ _, axis_legal _ _, axis_legal _ _, axis_legal _ _⟩)
      exact ⟨this.1.emit _, this.2⟩
    | serial =>
      have := State.build_mid h s.serReport (fun hn => absurd hm hn)
      exact ⟨this.1.emit _, this.2⟩
  · rename_i hc
    exact ⟨h, by simpa using hc⟩

/-! ## S9: the transmit -/

theorem subTransmit_mid (h : s.Mid early k) (hc : s.sampleComplete = false) :
    (subTransmit s).Mid early k ∧ (subTransmit s).sampleComplete = false := by
  have hT := h.legal.tIdle
  unfold subTransmit
  split
  · refine ⟨?_, hc⟩
    exact (h.idle (rate := s.idleRate) (cnt := 0) (it := s.params.tIdle) (el := false) (by omega)
      ⟨hT.1, le_refl _⟩ (fun _ => restart_below_rate _)).congr rfl
  · exact ⟨h, hc⟩

end Sys2Proof.Machine
end

