-- ==== Sys2Proof/Laws/PerInstr.lean ====
section
/-! SUPPORT. What holds of the encoding of each operation, one lemma for each constructor: the reserved bits of a
stimulus word (30_encoding.md R50) are 0 in every encoding. -/

namespace Sys2Proof.Laws.EncodingReserved

/-- Bits [23:17] and [63:56] of the operation's word are 0; an event code has none. -/
def Statement (i : Instr) : Prop := ∀ w, encode i = .stim w → w.extractLsb' 17 7 = 0 ∧ w.extractLsb' 56 8 = 0

theorem encodeStim_reserved (st : Stim) :
    (encodeStim st).extractLsb' 17 7 = 0 ∧ (encodeStim st).extractLsb' 56 8 = 0 := by
  constructor <;> apply BitVec.eq_of_getLsbD_eq <;> intro i hi <;> rw [BitVec.getLsbD_extractLsb'] <;>
    interval_cases i <;> simp only [encodeStim, BitVec.getLsbD_append] <;> simp

theorem of_stim {i : Instr} {st : Stim} (h : encode i = .stim (encodeStim st)) : Statement i := by
  intro w hw
  rw [h] at hw
  cases hw
  exact encodeStim_reserved st

theorem of_event {i : Instr} {c : Byte} (h : encode i = .event c) : Statement i := by
  intro w hw
  rw [h] at hw
  cases hw

theorem step (stim : Stim) : Statement (.step stim) := of_stim rfl
theorem reset : Statement .reset := by intro w hw; cases hw; decide
theorem getReport : Statement .getReport := of_stim rfl
theorem getIdle : Statement .getIdle := of_stim rfl
theorem setIdle (rate : Byte) : Statement (.setIdle rate) := of_stim rfl
theorem reqUnhandled (rqt rq : Byte) : Statement (.reqUnhandled rqt rq) := of_stim rfl
theorem idleTick : Statement .idleTick := of_event rfl
theorem wdogExpire : Statement .wdogExpire := of_event rfl
theorem serGap : Statement .serGap := of_event rfl
theorem serStart : Statement .serStart := of_event rfl
theorem serEdge : Statement .serEdge := of_event rfl
theorem serComplete : Statement .serComplete := of_event rfl
theorem pollAdvance : Statement .pollAdvance := of_event rfl
theorem pollFinish : Statement .pollFinish := of_event rfl
theorem pollRestart : Statement .pollRestart := of_event rfl
theorem sampleLatch : Statement .sampleLatch := of_event rfl
theorem arbitrate : Statement .arbitrate := of_event rfl
theorem buildMux : Statement .buildMux := of_event rfl
theorem buildSer : Statement .buildSer := of_event rfl
theorem transmit : Statement .transmit := of_event rfl

end Sys2Proof.Laws.EncodingReserved
end

