-- ==== Sys2Proof/Machine/ScriptText.lean ====
section
/-! DEFINITION. The text of a stimulus script (30_encoding.md R54, R55): lines, comments, numbers and statements. R54
gives `EXPECT <condition>` no grammar, so what a condition's words mean is an argument (log 25). -/

namespace Sys2Proof.Machine

/-- Why a line of a script is refused. -/
inductive ScriptSyntaxError where
  /-- The words of a line that no statement of R54 or R55 has. -/
  | noStatement (words : List String)
  /-- A word that is no number in decimal, `0x` hexadecimal or `0b` binary. -/
  | noNumber (word : String)
  /-- A value that does not fit its field (R54; 93_implementation_defined.md U6). -/
  | tooWide (value : Nat)
  deriving DecidableEq, Repr

/-- The pieces of a text between the characters that `p` marks. -/
def pieces (p : Char → Bool) : List Char → List (List Char)
  | [] => [[]]
  | c :: cs =>
    if p c then [] :: pieces p cs
    else match pieces p cs with
      | [] => [[c]]
      | w :: ws => (c :: w) :: ws

/-- The words of a line: what stands before `;`, cut at blanks and commas, with `=` a word of its own. -/
def lineWords (line : List Char) : List String :=
  let code := (line.takeWhile (fun c => c != ';')).flatMap fun c => if c == '=' then [' ', '=', ' '] else [c]
  ((pieces (fun c => c.isWhitespace || c == ',') code).filter (fun w => !w.isEmpty)).map String.ofList

/-- The value of a digit below `base`. -/
def digitValue (base : Nat) (c : Char) : Option Nat :=
  let v := if c.isDigit then c.toNat - 48
    else if 'a'.toNat ≤ c.toNat ∧ c.toNat ≤ 'f'.toNat then c.toNat - 87
    else if 'A'.toNat ≤ c.toNat ∧ c.toNat ≤ 'F'.toNat then c.toNat - 55
    else base
  if v < base then some v else none

/-- The digits of a number after those already read. -/
def digitsValue (base : Nat) : List Char → Nat → Option Nat
  | [], acc => some acc
  | c :: cs, acc =>
    match digitValue base c with
    | some v => digitsValue base cs (acc * base + v)
    | none => none

/-- A number: decimal, `0x` hexadecimal or `0b` binary (R54). -/
def readNumber (w : String) : Except ScriptSyntaxError Nat :=
  let value := match w.toList with
    | '0' :: 'x' :: c :: cs => digitsValue 16 (c :: cs) 0
    | '0' :: 'b' :: c :: cs => digitsValue 2 (c :: cs) 0
    | [] => none
    | cs => digitsValue 10 cs 0
  match value with
  | some n => .ok n
  | none => .error (.noNumber w)

def readNumbers : List String → Except ScriptSyntaxError (List Nat)
  | [] => .ok []
  | w :: ws =>
    match readNumber w, readNumbers ws with
    | .ok n, .ok ns => .ok (n :: ns)
    | .error e, _ => .error e
    | _, .error e => .error e

/-- The sticky fields by name (R54). -/
def scriptFields : List (String × ScriptField) :=
  [("lines0", .lines0), ("lines1", .lines1), ("dat", .dat), ("epready", .epready), ("hold", .hold)]

/-- The assignments of `SET f=v, …`. -/
def readFields : List String → Except ScriptSyntaxError (List (ScriptField × Nat))
  | [] => .ok []
  | f :: "=" :: v :: rest =>
    match scriptFields.lookup f, readNumber v, readFields rest with
    | some field, .ok n, .ok more => .ok ((field, n) :: more)
    | none, _, _ => .error (.noStatement [f])
    | _, .error e, _ => .error e
    | _, _, .error e => .error e
  | words => .error (.noStatement words)

/-- The line names `L0` to `L5` of `PAD c PRESS <set>` (R55). -/
def lineNames : List (String × Fin 6) := [("L0", 0), ("L1", 1), ("L2", 2), ("L3", 3), ("L4", 4), ("L5", 5)]

def readLineNames : List String → Except ScriptSyntaxError (List (Fin 6))
  | [] => .ok []
  | w :: ws =>
    match lineNames.lookup w, readLineNames ws with
    | some i, .ok more => .ok (i :: more)
    | none, _ => .error (.noStatement [w])
    | _, .error e => .error e

/-- The statement of a line, or none for an empty one (R54, R55). `conditions` reads the words of an `EXPECT`. -/
def readStmt (conditions : List String → Option (State → Bool)) (words : List String) :
    Except ScriptSyntaxError (Option Stmt) :=
  match words with
  | [] => .ok none
  | ["RESET"] => .ok (some .reset)
  | "SET" :: f :: rest => (readFields (f :: rest)).map fun fs => some (.set fs)
  | ["STEP", n] => (readNumber n).map fun k => some (.stepN k)
  | ["RUN_TO", k] => (readNumber k).map fun n => some (.runTo n)
  | ["REQ", "GET_REPORT"] => .ok (some .reqGetReport)
  | ["REQ", "GET_IDLE"] => .ok (some .reqGetIdle)
  | ["REQ", "SET_IDLE", n] =>
    match readNumber n with
    | .ok k => if k ≤ 255 then .ok (some (.reqSetIdle k)) else .error (.tooWide k)
    | .error e => .error e
  | ["REQ", "RAW", t, r, w] =>
    match readNumbers [t, r, w] with
    | .ok [a, b, c] => .ok (some (.reqRaw a b c))
    | .ok _ => .error (.noStatement words)
    | .error e => .error e
  | "PAD" :: "0" :: "PRESS" :: names => (readLineNames names).map fun ls => some (.padPress 0 ls)
  | "PAD" :: "1" :: "PRESS" :: names => (readLineNames names).map fun ls => some (.padPress 1 ls)
  | ["SERPAD", b0, b1, b2, b3, b4, b5, b6, b7, b8] =>
    match readNumbers [b0, b1, b2, b3, b4, b5, b6, b7, b8] with
    | .ok ns =>
      match ns.find? (fun n => 255 < n) with
      | some n => .error (.tooWide n)
      | none => .ok (some (.serpad (Vector.ofFn fun i => BitVec.ofNat 8 (ns.getD i.val 0))))
    | .error e => .error e
  | "EXPECT" :: condition =>
    match conditions condition with
    | some p => .ok (some (.expect p))
    | none => .error (.noStatement words)
  | _ => .error (.noStatement words)

def readLines (conditions : List String → Option (State → Bool)) :
    List (List Char) → Except ScriptSyntaxError (List Stmt)
  | [] => .ok []
  | l :: ls =>
    match readStmt conditions (lineWords l), readLines conditions ls with
    | .ok none, .ok more => .ok more
    | .ok (some st), .ok more => .ok (st :: more)
    | .error e, _ => .error e
    | _, .error e => .error e

/-- A script from its text: a list of lines (R54). -/
def readScript (conditions : List String → Option (State → Bool)) (text : String) :
    Except ScriptSyntaxError (List Stmt) :=
  readLines conditions (pieces (fun c => c == '\n') text.toList)

end Sys2Proof.Machine
end

