-- ==== Sys2Proof/Tests/Slice0.lean ====
section
/-! SUPPORT. The model's own tests: a smoke test of WellFormed, words written out from 30_encoding.md, one or two facts
for each operation with results taken from 95_test_vectors.md or from the examples of the rules named, and for each
statement with hypotheses a state and operands that meet them. -/

namespace Sys2Proof.Machine.Test

/-! ## WellFormed -/

/-- GET_REPORT's pair is not a REQ_UNHANDLED (30_encoding.md R49). -/
theorem test_wellFormed_refuses_get_report_pair : (Instr.reqUnhandled 0xA1 0x01).wellFormed = false := by decide
theorem test_wellFormed_refuses_get_idle_pair : (Instr.reqUnhandled 0xA1 0x02).wellFormed = false := by decide
theorem test_wellFormed_refuses_set_idle_pair : (Instr.reqUnhandled 0x21 0x0A).wellFormed = false := by decide
/-- Known request code, wrong type: unhandled (R49). -/
theorem test_wellFormed_accepts_wrong_type : (Instr.reqUnhandled 0x21 0x01).wellFormed = true := by decide

/-! ## Decoding: words written out from the tables of R47, R49 and R52 -/

theorem test_decode_reset : decode (.stim 0x0000000000008000) = .ok .reset := by decide
/-- RST beats a request in the same word (R51). -/
theorem test_decode_reset_beats_request : decode (.stim 0x00000001A1018000) = .ok .reset := by decide
theorem test_decode_get_report : decode (.stim 0x00000001A1010000) = .ok .getReport := by decide
theorem test_decode_get_idle : decode (.stim 0x00000002A1010000) = .ok .getIdle := by decide
/-- `REQ SET_IDLE 7`: WVAL = 0x0700 (R55). -/
theorem test_decode_set_idle : decode (.stim 0x0007000A21010000) = .ok (.setIdle 0x07) := by decide
/-- SET_REPORT (45_idle_transmit_host.md R111). -/
theorem test_decode_unhandled : decode (.stim 0x0002000921010000) = .ok (.reqUnhandled 0x21 0x09) := by decide
/-- Bits 5..0 = 0b111110, 11..6 = 0b101111, DAT and HOLD set, EPRDY clear (R47). -/
theorem test_decode_step : decode (.stim 0x0000000000005BFE) = .ok (.step
    { lines0 := 0b111110, lines1 := 0b101111, dat := true, epRdy := false, hold := true, reqv := false, rqt := 0,
      rq := 0, wval := 0 }) := by decide
/-- Reserved bits are ignored (R50). -/
theorem test_decode_reserved_bits : decode (.stim 0xFF000001A1FF0000) = .ok .getReport := by decide
theorem test_decode_idle_tick : decode (.event 0x20) = .ok .idleTick := by decide
theorem test_decode_wdog_expire : decode (.event 0x14) = .ok .wdogExpire := by decide
theorem test_decode_ser_gap : decode (.event 0x10) = .ok .serGap := by decide
theorem test_decode_ser_start : decode (.event 0x11) = .ok .serStart := by decide
theorem test_decode_ser_edge : decode (.event 0x12) = .ok .serEdge := by decide
theorem test_decode_ser_complete : decode (.event 0x13) = .ok .serComplete := by decide
theorem test_decode_poll_advance : decode (.event 0x01) = .ok .pollAdvance := by decide
theorem test_decode_poll_finish : decode (.event 0x02) = .ok .pollFinish := by decide
theorem test_decode_poll_restart : decode (.event 0x03) = .ok .pollRestart := by decide
theorem test_decode_sample_latch : decode (.event 0x04) = .ok .sampleLatch := by decide
theorem test_decode_arbitrate : decode (.event 0x30) = .ok .arbitrate := by decide
theorem test_decode_build_mux : decode (.event 0x31) = .ok .buildMux := by decide
theorem test_decode_build_ser : decode (.event 0x32) = .ok .buildSer := by decide
theorem test_decode_transmit : decode (.event 0x33) = .ok .transmit := by decide
theorem test_decode_unused_code : decode (.event 0x00) = .error (.unusedEventCode 0x00) := by decide
theorem test_decode_code_of_word : decode (.event 0x40) = .error (.codeOfStimulusOperation 0x40) := by decide

/-! ## States -/

/-- The next state of an operation meets a condition. -/
def gives (o : Host.Outcome State Fault Refusal) (p : State → Bool) : Bool :=
  match o with
  | .next t => p t
  | .fault _ | .refused _ => false

theorem holds_of_gives {o : Host.Outcome State Fault Refusal} {p : State → Bool} {t : State}
    (h : gives o p = true) (e : o = .next t) : p t = true := by
  subst e; exact h

theorem next_of_gives {o : Host.Outcome State Fault Refusal} {p : State → Bool} (h : gives o p = true) :
    ∃ t, o = .next t ∧ p t = true := by
  cases o with
  | next t => exact ⟨t, rfl, h⟩
  | fault r => cases h
  | refused r => cases h

/-- The reset state in multiplexed mode. -/
def muxState : State := { State.reset with mode := .mux }

/-- The reset state in serial mode, between transactions. -/
def serState : State :=
  { State.reset with mode := .serial, ptEn := false, selOe := false, serEn := true, serOe := true }

/-- A serial transaction in progress, at byte b and edge e. -/
def activeState (b e : Nat) : State :=
  { serState with serPhase := .active, att := false, wdArmed := true, wdCnt := 20000, byteIdx := b, edgeIdx := e }

/-- A raw table: the bytes of phases 2, 3, 5 and 7 of port 0 and of phase 2 of port 1, all else released. -/
def rawTable (p2 p3 p5 p7 q2 : Byte) : Vector (Vector Byte 8) 2 :=
  #v[#v[0xFF, 0xFF, p2, p3, 0xFF, p5, 0xFF, p7], #v[0xFF, 0xFF, q2, 0xFF, 0xFF, 0xFF, 0xFF, 0xFF]]

/-! ## The step and the operations -/

/-- Vector T1: RESET from a faulted state. -/
theorem test_reset_clears_fault :
    gives (exec .reset { muxState with fault := some .counterRange, rpt := ⟨1, 2, 3, 4, 5, 6⟩ }) (fun t =>
      t.fault == none && t.mode == .undecided && t.rpt.toList == [0x7F, 0x7F, 0x7F, 0x7F, 0x00, 0x00] &&
      t.trace == [0xF0]) = true := by decide
/-- Vector T2. -/
theorem test_step_runs_idle_tick :
    gives (step ({ State.reset with itCnt := 1 }.giveWord 0x0000000000000FFF)) (fun t =>
      t.idleCnt == 1 && t.itCnt == 4000 && t.trace == [0x20]) = true := by decide
/-- Vector T4: HOLD stops the serial timer. -/
theorem test_step_hold :
    gives (step ({ activeState 3 0 with scCnt := 1 }.giveWord 0x0000000000004FFF)) (fun t =>
      t.scCnt == 1 && t.wdCnt == 19999 && t.trace == []) = true := by decide
/-- The worked example of 40_timing_service.md R58: POLL_FINISH, ARBITRATE, BUILD_MUX, TRANSMIT in one step. -/
theorem test_step_order :
    gives (step ({ State.reset with ptCnt := 1, phase := 7, raw := rawTable 0xEF 0xFE 0xFF 0xFF 0xFF }.giveWord
      0x0000000000002FFF)) (fun t =>
        t.trace == [0x02, 0x30, 0x31, 0x33] && t.mode == .mux && (t.tx.map Report.toList) ==
          some [0x7F, 0x00, 0x7F, 0x7F, 0x40, 0x00]) = true := by decide
/-- R108: after reset the answer is the reset report. -/
theorem test_get_report :
    gives (exec .getReport State.reset) (fun t =>
      t.outputs.respLen == 6 && t.resp == .data [0x7F, 0x7F, 0x7F, 0x7F, 0x00, 0x00]) = true := by decide
/-- R109. -/
theorem test_get_idle : gives (exec .getIdle State.reset) (fun t => t.resp == .data [0x03]) = true := by decide
/-- R110: a waiting elapse is dropped, a pending change is kept. -/
theorem test_set_idle :
    gives (exec (.setIdle 0) { muxState with idleElapsed := true, idleCnt := 3, sendPending := true }) (fun t =>
      t.idleRate == 0 && t.idleCnt == 0 && !t.idleElapsed && t.sendPending && t.resp == .ack) = true := by decide
/-- R111. -/
theorem test_req_unhandled :
    gives (exec (.reqUnhandled 0x21 0x09) State.reset) (fun t => t.resp == .unhandled && t.trace == [0xF0, 0x4F])
      = true := by decide
/-- R106. -/
theorem test_idle_tick_elapses :
    gives (exec .idleTick { muxState with idleRate := 3, idleCnt := 2 }) (fun t => t.idleCnt == 3 && t.idleElapsed)
      = true := by decide
theorem test_idle_tick_rate_zero :
    gives (exec .idleTick { muxState with idleRate := 0 }) (fun t => t.idleCnt == 0 && !t.idleElapsed) = true := by
  decide
/-- R86 and vector W8. -/
theorem test_wdog_expire :
    gives (exec .wdogExpire { activeState 3 0 with acc := Vector.replicate 6 0xAA, clk := false }) (fun t =>
      t.byteIdx == 0 && t.acc == Vector.replicate 6 0x00 && t.att && t.clk && t.serPhase == .gap && t.gapCnt == 20 &&
      !t.wdArmed && !t.sampleComplete) = true := by decide
/-- R78. -/
theorem test_ser_gap : gives (exec .serGap { serState with gapCnt := 20 }) (fun t => t.gapCnt == 19) = true := by
  decide
/-- R79. -/
theorem test_ser_start :
    gives (exec .serStart { serState with acc := Vector.replicate 6 0xAA }) (fun t =>
      !t.att && t.serPhase == .active && t.acc == Vector.replicate 6 0x00 && t.wdCnt == 20000) = true := by decide
/-- R82: byte 1 (0x42), edge 2, drives 1 on the falling clock. -/
theorem test_ser_edge_data_out :
    gives (exec .serEdge { activeState 1 2 with cmd := false }) (fun t => t.cmd && !t.clk && t.edgeIdx == 3)
      = true := by decide
/-- R81: byte 3, bit 0, shifts into slot 0 from the top. -/
theorem test_ser_edge_samples :
    gives (exec .serEdge { activeState 3 1 with
        acc := #v[0x80, 0, 0, 0, 0, 0], clk := false, pins := { releasedPins with dat := true } }) (fun t =>
      t.acc[0] == 0xC0 && t.clk) = true := by decide
/-- R85. -/
theorem test_ser_complete :
    gives (exec .serComplete { activeState 8 19 with acc := Vector.replicate 6 0x5A }) (fun t =>
      t.serPhase == .gap && t.gapCnt == 20 && t.sampleComplete && t.acc == Vector.replicate 6 0x5A) = true := by decide
/-- R69. -/
theorem test_poll_advance :
    gives (exec .pollAdvance { muxState with phase := 2, sel := false }) (fun t =>
      t.phase == 3 && t.sel && t.needSample && t.stCnt == 20) = true := by decide
/-- R70. -/
theorem test_poll_finish :
    gives (exec .pollFinish { muxState with phase := 7, sel := false }) (fun t =>
      t.phase == 8 && t.sel && t.ptPeriod == 2000 && t.sampleComplete && !t.needSample) = true := by decide
/-- R71: the select line is not toggled. -/
theorem test_poll_restart :
    gives (exec .pollRestart { muxState with ptPeriod := 2000 }) (fun t =>
      t.phase == 0 && t.ptPeriod == 500 && t.needSample && t.stCnt == 20 && t.sel) = true := by decide
/-- R72. -/
theorem test_sample_latch :
    gives (exec .sampleLatch { muxState with
        phase := 3, needSample := true, pins := { releasedPins with lines0 := 0b111110 } }) (fun t =>
      t.readRaw 0 3 == 0xFE && t.readRaw 1 3 == 0xFF && !t.needSample) = true := by decide
/-- R95: the marker on port 0 without the chord. -/
theorem test_arbitrate_serial :
    gives (exec .arbitrate { State.reset with sampleComplete := true, raw := rawTable 0xFF 0xFF 0xFF 0xC0 0xFF })
      (fun t => t.mode == .serial && !t.ptEn && t.serEn && !t.sampleComplete && t.scCnt == 71 && t.gapCnt == 20)
      = true := by decide
/-- R93, last row: chord and marker give MUX. -/
theorem test_arbitrate_chord_wins :
    gives (exec .arbitrate { State.reset with sampleComplete := true, raw := rawTable 0xFF 0xFF 0xFF 0xC0 0xEF })
      (fun t => t.mode == .mux && t.sampleComplete && !t.serEn) = true := by decide
/-- R101 and vector W6. -/
theorem test_build_mux :
    gives (exec .buildMux { muxState with raw := rawTable 0xEF 0xFE 0xFF 0xFF 0xFF }) (fun t =>
      t.rpt.toList == [0x7F, 0x00, 0x7F, 0x7F, 0x40, 0x00] && t.sendPending) = true := by decide
/-- Vector W7: all four directions low. -/
theorem test_build_mux_tie :
    gives (exec .buildMux { muxState with raw := rawTable 0xEF 0xF0 0xFF 0xFF 0xFF }) (fun t =>
      t.rpt.toList == [0x7F, 0x7F, 0x7F, 0x7F, 0x40, 0x00]) = true := by decide
/-- R102 and vector W3. -/
theorem test_build_ser :
    gives (exec .buildSer { serState with acc := #v[0xFE, 0xFF, 0x80, 0x80, 0x00, 0xFF] }) (fun t =>
      t.rpt.toList == [0x00, 0xFF, 0x80, 0x80, 0x01, 0x00] && t.sendPending && !t.sampleComplete) = true := by decide
/-- Vector W9: axis bytes are copied, not inverted. -/
theorem test_build_ser_axis_not_inverted :
    gives (exec .buildSer { serState with acc := #v[0xFF, 0xFF, 0xFF, 0xFF, 0x00, 0xFF] }) (fun t =>
      t.rpt.toList == [0x00, 0xFF, 0xFF, 0xFF, 0x00, 0x00]) = true := by decide
/-- R107. -/
theorem test_transmit :
    gives (exec .transmit { muxState with sendPending := true, idleElapsed := true, idleCnt := 3, itCnt := 9 }) (fun t =>
      t.tx == some t.rpt && !t.sendPending && !t.idleElapsed && t.idleCnt == 0 && t.itCnt == 4000) = true := by decide
/-- A faulted state takes no step (10_state.md R30). -/
theorem test_fault_stops : (match exec .idleTick { muxState with fault := some .stateRange } with
    | .fault r => r == .stateRange | .next _ | .refused _ => false) = true := by decide

/-- An operation placed by `withFetchWord` is what the next step runs: its code stands in that step's trace. -/
theorem test_fetch_runs_the_event_code :
    ([0x20, 0x14, 0x10, 0x11, 0x12, 0x13, 0x01, 0x02, 0x03, 0x04, 0x30, 0x31, 0x32, 0x33] : List Nat).all (fun c =>
      gives (step (State.reset.withFetchWord 8 c)) (fun t => t.trace.contains (BitVec.ofNat 8 c))) = true := by decide

/-- PAD c PRESS of line 0 and `REQ SET_IDLE` as a script (30_encoding.md R54, R55). -/
theorem test_script :
    (match runScript [.reset, .reqSetIdle 7, .reqGetIdle, .expect (fun s => s.resp == .data [0x07])] ScriptEnv.start
        muxState with
      | .ok (env, _) => env.last == 2
      | .error _ => false) = true := by decide
/-- The text of a script: a comment, a sticky field, a request (R54, R55). -/
theorem test_script_text :
    (match readScript (fun _ => none) "RESET\nSET hold=1 ; stall\nSTEP 0b1\nREQ GET_IDLE" with
      | .ok l => (match runScript l ScriptEnv.start State.reset with
        | .ok (env, s) => env.last == 2 && s.pins.hold && s.resp == .data [3]
        | .error _ => false)
      | .error _ => false) = true := by decide
/-- R31: MUX_STAT after reset is phase 8, select driven and idle. -/
theorem test_registers : State.reset.regMuxStat = 0b1101000 ∧ State.reset.regWdStat = 0 := by decide

/-! ## Witnesses: a state and operands that meet the hypotheses of each statement -/

theorem inRange_of {s : State}
    (h : s.phase ≤ 8 ∧ s.stCnt ≤ s.params.tSettle ∧ (s.ptPeriod = s.params.tPoll ∨ s.ptPeriod = s.params.tGap) ∧
      1 ≤ s.ptCnt ∧ s.ptCnt ≤ 65535 ∧ s.gapCnt ≤ s.params.txnGap ∧ s.byteIdx ≤ 8 ∧ s.edgeIdx < s.params.eByte ∧
      1 ≤ s.scCnt ∧ s.scCnt ≤ s.params.tHalf ∧ s.wdCnt ≤ s.params.tWd ∧ s.idleCnt ≤ 255 ∧ 1 ≤ s.itCnt ∧
      s.itCnt ≤ s.params.tIdle) : s.InRange := by
  obtain ⟨a, b, c, d, e, f, g, i, j, k, l, m, n, o⟩ := h
  exact ⟨a, b, c, d, e, f, g, i, j, k, l, m, n, o⟩

/-- The invariant from its parts, each decided on a concrete state. -/
theorem inv_of {s : State} (h1 : s.params.Legal ∧ s.fault = none ∧ s.mode ≠ .three ∧ ¬ (s.ptEn = true ∧ s.serEn = true) ∧
      (s.serEn = true ↔ s.mode = .serial) ∧ (s.serOe = true ↔ s.mode = .serial) ∧
      (s.ptEn = false ↔ s.mode = .serial) ∧ (s.selOe = false ↔ s.mode = .serial) ∧ s.sampleComplete = false)
    (h2 : (s.serPhase = .gap →
        s.byteIdx = 0 ∧ s.edgeIdx = 0 ∧ s.wdArmed = false ∧ s.att = true ∧ s.clk = true ∧ s.cmd = true) ∧
      (s.serPhase = .active → s.att = false ∨ (s.byteIdx = 8 ∧ 18 ≤ s.edgeIdx)))
    (hr : s.rpt = .safeDefault) (h3 : s.InRange)
    (h4 : (s.needSample = true → s.phase ≤ 7 ∧ s.stCnt ≤ s.params.tSettle) ∧
      (s.needSample = true → s.stCnt + 1 < s.ptCnt) ∧ (s.needSample = true → s.mode ≠ .serial) ∧
      (s.mode = .serial → s.phase = 8) ∧ (s.phase ≤ 7 → s.ptPeriod = s.params.tPoll) ∧
      s.sel = (s.params.selIdle ^^ decide (s.phase % 2 = 1)) ∧
      (s.serPhase = .active → s.mode = .serial ∧ s.wdArmed = true) ∧ (s.wdArmed = true → 1 ≤ s.wdCnt) ∧
      (s.idleElapsed = false → s.idleRate ≠ 0 → s.idleCnt < s.idleRate.toNat) ∧
      ∀ (c : Fin 2) (p : Fin 8), s.raw[c][p] &&& 0xC0 = 0xC0) : s.Inv := by
  obtain ⟨a1, a2, a3, a4, a5, a6, a7, a8, a9⟩ := h1
  obtain ⟨c1, c2, c3, c4, c5, c6, c7, c8, c9, c10⟩ := h4
  have hx : axisLegal 0x7F := .inr (.inl rfl)
  exact ⟨a1, a2, a3, a4, a5, a6, a7, a8, a9, h2.1, h2.2, fun _ => hr ▸ ⟨hx, hx, hx, hx⟩, c1, h3, c2, c3, c4, c5, c6,
    c7, c8, c9, c10⟩

theorem muxState_inv : muxState.Inv := inv_of (by decide) (by decide) rfl (inRange_of (by decide)) (by decide)
theorem serState_inv : serState.Inv := inv_of (by decide) (by decide) rfl (inRange_of (by decide)) (by decide)
theorem activeState_inv : (activeState 3 1).Inv :=
  inv_of (by decide) (by decide) rfl (inRange_of (by decide)) (by decide)
theorem muxState_inRange : muxState.InRange := muxState_inv.range
theorem serState_inRange : serState.InRange := serState_inv.range

/-- STEP answers a next state from a state without a fault. -/
theorem step_next (s : State) (st : Stim) (h : s.fault = none) : ∃ t, exec (.step st) s = .next t :=
  ⟨_, runOp_of_noFault h _⟩

theorem test_step_in_mux_mode :
    gives (step (muxState.giveWord 0x0000000000000FFF)) (fun t => t.fault == none && t.ptCnt == 499) = true := by decide

/-- One step of the machine is one step of the host's run. -/
theorem run_one {s t : State} : core.run 1 s = .next t ↔ step s = .next t := by
  simp only [Host.Core.run, core]
  cases step s <;> simp

theorem witness_DecodeInvertsEncode :
    (Instr.reqUnhandled 0x21 0x09).wellFormed = true ∧ (Instr.setIdle 0xFF).wellFormed = true ∧
    (Instr.step releasedPins).wellFormed = true ∧ releasedPins.reqv = false := by decide

/-- One word for each clause of the request map, and one at the border of each: RQT off by one bit, RQ off by one. -/
theorem witness_RequestMapMatchesMasks :
    (0x00000001A1010FFF : StimWord).getLsbD 15 = false ∧
    (0x00000001A1010FFF : StimWord) &&& 0x000000FFFF010000 = 0x00000001A1010000 ∧
    (0x00000002A1010FFF : StimWord) &&& 0x000000FFFF010000 = 0x00000002A1010000 ∧
    (0x00FF000A21010FFF : StimWord) &&& 0x000000FFFF010000 = 0x0000000A21010000 ∧
    (0x0000000B21010000 : StimWord) &&& 0x0000000000010000 = 0x0000000000010000 ∧
    (0x0000000B21010000 : StimWord) &&& 0x000000FFFF010000 ≠ 0x0000000A21010000 ∧
    (0x0000000B21010000 : StimWord) &&& 0x000000FFFF010000 ≠ 0x00000001A1010000 ∧
    (0x0000000B21010000 : StimWord) &&& 0x000000FFFF010000 ≠ 0x00000002A1010000 ∧
    (0x0000000A21000000 : StimWord) &&& 0x0000000000010000 = 0 := by decide

theorem witness_ReservedBitsChangeNothing :
    (0xFF00000000FE0FFF : StimWord) ≠ 0x0000000000000FFF ∧
    (0xFF00000000FE0FFF : StimWord) &&& 0x00FFFFFFFF01FFFF = (0x0000000000000FFF : StimWord) &&& 0x00FFFFFFFF01FFFF := by
  decide

theorem witness_FieldsWithoutRequestIgnored :
    muxState.pins.reqv = false ∧ releasedPins.reqv = false ∧ (∃ t, exec (.step releasedPins) muxState = .next t) ∧
    (0x0000000000008000 : StimWord).getLsbD 15 = true ∧ (0x00000001A101FFFF : StimWord).getLsbD 15 = true :=
  ⟨rfl, rfl, step_next _ _ rfl, by decide, by decide⟩

theorem witness_StepRunsTheDecodedOperation :
    (muxState.giveWord 0x0000000000000FFF).params.Legal ∧
    (muxState.giveWord 0x0000000000000FFF).inputs = 0x0000000000000FFF :: [] ∧ muxState.inputs = [] := by decide

theorem witness_StepRunsSubStepsInOrder :
    muxState.fault = none ∧ muxState.Inv ∧ (requestStim 0xA1 0x01 0).reqv = true ∧ releasedPins.reqv = false :=
  ⟨rfl, muxState_inv, rfl, rfl⟩

/-- A legal record and one at the border that is not: T_SETTLE = T_POLL, and T_WD = 9·E_BYTE·T_HALF. -/
def settleParams (n : Nat) : Params := { Params.default with tSettle := n }
def watchdogParams (n : Nat) : Params := { Params.default with tWd := n }
def shortParams : Params := { Params.default with tPoll := 1, tSettle := 0 }

theorem witness_IllegalParametersRefused :
    Params.default.Legal ∧ ¬ (settleParams 500).Legal ∧ (settleParams 499).Legal ∧ ¬ (watchdogParams 12780).Legal ∧
    (watchdogParams 12781).Legal :=
  ⟨by decide, by decide, by decide, by decide, by decide⟩

theorem witness_ResetSetsEveryElement :
    muxState.params.Legal ∧ (0x0000000000008000 : StimWord).getLsbD 15 = true := by decide

theorem witness_FaultedStateTakesNoStep :
    { muxState with fault := some Fault.stateRange }.fault = some Fault.stateRange ∧ Instr.transmit ≠ .reset := by
  decide

/-- One state for each clause of the periodic timers. -/
theorem witness_PeriodicTimersCountAndFire :
    (muxState.fault = none ∧ muxState.params.Legal ∧ muxState.InRange ∧ muxState.itCnt ≠ 1 ∧ muxState.serEn = false ∧
      muxState.ptEn = true ∧ muxState.ptCnt ≠ 1) ∧
    ({ muxState with itCnt := 1, ptCnt := 1 }.InRange) ∧
    (serState.fault = none ∧ serState.InRange ∧ serState.serEn = true ∧ serState.pins.hold = false ∧
      serState.scCnt ≠ 1 ∧ serState.ptEn = false) ∧
    ({ serState with scCnt := 1 }.InRange) ∧ { activeState 8 19 with scCnt := 1 }.InRange :=
  ⟨⟨rfl, by decide, muxState_inRange, by decide, rfl, rfl, by decide⟩, inRange_of (by decide),
    ⟨rfl, serState_inRange, rfl, rfl, by decide, rfl⟩, inRange_of (by decide), inRange_of (by decide)⟩

/-- One state for each clause of the triggers. -/
theorem witness_TriggersSelectTheOperations :
    (muxState.fault = none ∧ muxState.InRange ∧ muxState.mode ≠ .three ∧ muxState.wdArmed = false ∧
      muxState.needSample = false ∧ muxState.sampleComplete = false) ∧
    { serState with wdArmed := true, wdCnt := 1 }.InRange ∧ { serState with wdArmed := true, wdCnt := 2 }.InRange ∧
    { muxState with needSample := true, stCnt := 0 }.InRange ∧
    { muxState with needSample := true, stCnt := 20 }.InRange ∧
    { State.reset with sampleComplete := true }.InRange ∧ { muxState with sampleComplete := true }.InRange ∧
    { serState with sampleComplete := true }.InRange ∧
    { muxState with sendPending := true, pins := { releasedPins with epRdy := true } }.InRange :=
  ⟨⟨rfl, muxState_inRange, by decide, rfl, rfl, rfl⟩, inRange_of (by decide), inRange_of (by decide),
    inRange_of (by decide), inRange_of (by decide), inRange_of (by decide), inRange_of (by decide),
    inRange_of (by decide), inRange_of (by decide)⟩

/-- For every statement whose hypothesis is that a step answers a next state: EventsFollowSubStepOrder,
EveryElementHasItsWriter, AnswersComeFromThePreviousStep and the others of this shape. -/
theorem witness_a_step_answers :
    (∃ t, exec (.step releasedPins) muxState = .next t) ∧ (∃ t, exec (.step releasedPins) serState = .next t) ∧
    (∃ t, exec (.step releasedPins) (activeState 3 1) = .next t) :=
  ⟨step_next _ _ rfl, step_next _ _ rfl, step_next _ _ rfl⟩

/-- For every statement whose only hypothesis is that the state holds no fault: PollFinish, PollRestart, SerialStart,
SerialComplete, WatchdogExpiry, BuildMux, BuildSer, Transmit, GetRequests, SetIdle, UnhandledRequest. -/
theorem witness_states_without_a_fault : muxState.fault = none ∧ serState.fault = none ∧ (activeState 3 1).fault = none := by
  decide

/-- Both ends of the phases that POLL_ADVANCE takes, and of the phases that SAMPLE_LATCH takes. -/
theorem witness_PollAdvance_and_SampleLatch :
    { muxState with phase := 0 }.fault = none ∧ { muxState with phase := 0 }.phase ≤ 6 ∧
    { muxState with phase := 6 }.phase ≤ 6 ∧ { muxState with phase := 0 }.phase = (0 : Fin 8).val ∧
    { muxState with phase := 7 }.phase = (7 : Fin 8).val := by decide

theorem witness_SerialGapCountsDown :
    { serState with gapCnt := 1 }.fault = none ∧ 0 < { serState with gapCnt := 1 }.gapCnt ∧
    { serState with gapCnt := 20 }.gapCnt ≤ { serState with gapCnt := 20 }.params.txnGap := by decide

/-- Edges inside a byte, the last edge of a byte, and the last edge of the transaction, which the other statement
takes. -/
theorem witness_SerialEdge :
    ((activeState 3 1).fault = none ∧ (activeState 3 1).byteIdx ≤ 8 ∧
      (activeState 3 1).edgeIdx < (activeState 3 1).params.eByte ∧
      ¬ ((activeState 3 1).byteIdx = 8 ∧ (activeState 3 1).edgeIdx + 1 = (activeState 3 1).params.eByte)) ∧
    ¬ ((activeState 7 19).byteIdx = 8 ∧ (activeState 7 19).edgeIdx + 1 = (activeState 7 19).params.eByte) ∧
    ((activeState 8 19).fault = none ∧ 18 ≤ (activeState 8 19).params.eByte ∧ (activeState 8 19).byteIdx = 8 ∧
      (activeState 8 19).edgeIdx + 1 = (activeState 8 19).params.eByte) := by decide

/-- The two outcomes of the decision table, by the predicates as the statement has them. -/
theorem witness_ArbitrateFollowsTheDecisionTable :
    State.reset.fault = none ∧ State.reset.readRaw 0 7 ≠ State.reset.params.serialMarker ∧
    ¬ (∀ k : Fin 8, State.reset.params.chordMask.getLsbD k = true → State.reset.buttonDown 1 k = true) ∧
    { State.reset with raw := rawTable 0xFF 0xFF 0xFF 0xC0 0xFF }.readRaw 0 7 = State.reset.params.serialMarker ∧
    ∀ k : Fin 8, State.reset.params.chordMask.getLsbD k = true →
      { State.reset with raw := rawTable 0xFF 0xFF 0xFF 0xC0 0xEF }.buttonDown 1 k = true := by decide

theorem witness_ModeIsDecidedOnce :
    muxState.mode ≠ .undecided ∧ muxState.mode ≠ .three ∧
    1 ≤ (muxState.giveWord 0x0000000000000FFF).inputs.length ∧
    (∀ w ∈ (muxState.giveWord 0x0000000000000FFF).inputs, w.getLsbD 15 = false) ∧
    ∃ t, core.run 1 (muxState.giveWord 0x0000000000000FFF) = .next t :=
  ⟨by decide, by decide, by decide, List.forall_mem_singleton.mpr (by decide),
    (next_of_gives test_step_in_mux_mode).imp fun _ h => run_one.mpr h.1⟩

/-- Operations of the Report Builder answer a next state; a released table; a tie; the default permutation. -/
theorem witness_FormatterProperties :
    (∃ t, exec .buildMux muxState = .next t) ∧ (∃ t, exec .buildSer serState = .next t) ∧
    (∀ (c : Fin 2) (p : Fin 8), muxState.readRaw c p = 0xFF) ∧ muxState.pressed 0 3 2 = muxState.pressed 0 3 3 ∧
    serState.params.serialPerm = Params.default.serialPerm ∧
    { serState with acc := Vector.replicate 6 0xFF }.acc = Vector.replicate 6 0xFF :=
  ⟨⟨_, runOp_of_noFault (s := muxState) rfl opBuildMux⟩, ⟨_, runOp_of_noFault (s := serState) rfl opBuildSer⟩,
    by decide, by decide, rfl, rfl⟩

/-- A step that answers without a fault. -/
theorem witness_SampleSetConsumed_and_Transmit :
    ∃ t, exec (.step { releasedPins with epRdy := true }) { muxState with sendPending := true } = .next t ∧
      (t.fault == none && t.tx.isSome && t.mode == .mux) = true :=
  next_of_gives (by decide)

theorem witness_IdleTickCountsToTheRate :
    muxState.fault = none ∧ muxState.idleRate ≠ 0 ∧ muxState.idleElapsed = false ∧ muxState.idleCnt < 255 ∧
    { muxState with idleRate := 0 }.idleRate = 0 ∧ { muxState with idleElapsed := true }.idleElapsed = true := by decide

theorem witness_ZeroRateNeverResends :
    ∃ t, exec (.step { releasedPins with epRdy := true }) { muxState with idleRate := 0 } = .next t ∧
      decide (t.rpt = muxState.rpt) = true :=
  next_of_gives (p := fun t => decide (t.rpt = muxState.rpt)) (by decide)

/-- A send just made at rate 1 with one step for each idle tick: the next send is due in the next step. -/
def resendState : State :=
  { State.resetWith { Params.default with tIdle := 1 } with
    mode := .mux, idleRate := 1, inputs := [0x0000000000002FFF] }

theorem test_resend_keeps_the_report :
    gives (step resendState) (fun t => t.rpt == resendState.rpt && t.tx == some resendState.rpt) = true := by decide

theorem witness_ResendAfterRateTicks :
    resendState.Inv ∧ resendState.mode ≠ .undecided ∧ resendState.idleRate ≠ 0 ∧ resendState.idleCnt = 0 ∧
    resendState.idleElapsed = false ∧ resendState.itCnt = resendState.params.tIdle ∧
    resendState.sendPending = false ∧
    resendState.inputs.length = resendState.idleRate.toNat * resendState.params.tIdle ∧
    (∀ w ∈ resendState.inputs, w.getLsbD 15 = false ∧ w.getLsbD 16 = false ∧ w.getLsbD 13 = true) ∧
    ∀ k u, k ≤ resendState.idleRate.toNat * resendState.params.tIdle → core.run k resendState = .next u →
      u.rpt = resendState.rpt := by
  refine ⟨inv_of (by decide) (by decide) rfl (inRange_of (by decide)) (by decide), by decide, by decide, rfl, rfl, rfl,
    rfl, rfl, List.forall_mem_singleton.mpr (by decide), ?_⟩
  intro k u hk hu
  have hk : k ≤ 1 := hk
  rcases (by omega : k = 0 ∨ k = 1) with rfl | rfl
  · cases hu; rfl
  · have h := holds_of_gives test_resend_keeps_the_report (run_one.mp hu)
    simp only [Bool.and_eq_true, beq_iff_eq] at h
    exact h.1

/-- One state for each clause of the model faults. -/
theorem witness_OutOfRangeStatesFault :
    muxState.fault = none ∧ 8 < { muxState with phase := 9 }.phase ∧ muxState.ptEn = true ∧
    { muxState with ptCnt := 1 }.ptCnt = 1 ∧ 7 < muxState.phase ∧ { muxState with mode := .three }.mode = .three ∧
    muxState.needSample = false ∧ { muxState with needSample := true }.needSample = true ∧
    serState.fault = none ∧ serState.serEn = true ∧ serState.pins.hold = false ∧
    { serState with wdArmed := true }.wdArmed = true ∧ { serState with wdArmed := true }.wdCnt = 0 ∧
    serState.gapCnt = 0 ∧ muxState.idleRate ≠ 0 ∧ muxState.idleElapsed = false ∧
    255 ≤ { muxState with idleCnt := 255 }.idleCnt := by decide

/-- Both ends of the counters' ranges: the first count of each pair is 0, the second the first one too large. -/
theorem witness_OutOfRangeStatesFault_ends :
    { muxState with itCnt := 0 }.itCnt = 0 ∧ muxState.params.tIdle + 1 < { muxState with itCnt := 4002 }.itCnt ∧
    muxState.params.tWd + 1 < { muxState with wdCnt := 20002 }.wdCnt ∧
    { serState with scCnt := 0 }.scCnt = 0 ∧ serState.params.tHalf + 1 < { serState with scCnt := 73 }.scCnt ∧
    { muxState with ptCnt := 0 }.ptCnt = 0 ∧ 65536 < { muxState with ptCnt := 65537 }.ptCnt ∧
    muxState.params.tSettle + 1 < { muxState with stCnt := 22 }.stCnt ∧
    serState.params.txnGap + 1 < { serState with gapCnt := 22 }.gapCnt ∧
    8 < { serState with byteIdx := 9 }.byteIdx ∧
    serState.params.eByte ≤ { serState with edgeIdx := serState.params.eByte }.edgeIdx := by decide

/-- A step without a latch, without a serial edge, with the serial timer off. -/
theorem witness_InputsMatterToTheirReadersOnly :
    ∃ t, exec (.step releasedPins) muxState = .next t ∧ (!t.trace.contains 0x04 && !t.trace.contains 0x12) = true ∧
      muxState.serEn = false :=
  (next_of_gives (p := fun t => !t.trace.contains 0x04 && !t.trace.contains 0x12) (by decide)).imp
    fun _ h => ⟨h.1, h.2, rfl⟩

theorem witness_RequestsReachOnlyTheIdleState :
    muxState.Inv ∧ (∃ t, exec (.step releasedPins) muxState = .next t) ∧
    ∃ t, exec (.step { releasedPins with reqv := true, rqt := 0x21, rq := 0x0A, wval := 0x0700 }) muxState = .next t :=
  ⟨muxState_inv, step_next _ _ rfl, step_next _ _ rfl⟩

theorem witness_MuxEngineInertInSerialMode :
    serState.Inv ∧ serState.mode = .serial ∧ ∃ t, exec (.step releasedPins) serState = .next t :=
  ⟨serState_inv, rfl, step_next _ _ rfl⟩

theorem witness_SerialEngineInertOutsideSerialMode :
    muxState.Inv ∧ ∃ t, exec (.step releasedPins) muxState = .next t ∧ decide (t.mode ≠ .serial) = true :=
  ⟨muxState_inv, next_of_gives (p := fun t => decide (t.mode ≠ .serial)) (by decide)⟩

/-- A stalled transaction whose watchdog has one step left, and one whose watchdog has more. -/
def stalledState : State := { activeState 3 1 with wdCnt := 1, inputs := [0x0000000000004FFF] }

theorem stalledState_inv : stalledState.Inv :=
  inv_of (by decide) (by decide) rfl (inRange_of (by decide)) (by decide)

theorem witness_HoldStallsTheSerialTimerOnly :
    (stalledState.Inv ∧ stalledState.mode = .serial ∧ { releasedPins with hold := true }.hold = true ∧
      stalledState.wdArmed = true ∧ stalledState.wdCnt = 1) ∧
    ((activeState 3 1).Inv ∧ (activeState 3 1).wdArmed = true ∧ 1 < (activeState 3 1).wdCnt ∧
      (activeState 3 1).itCnt ≠ 1) ∧
    ∃ t, exec (.step { releasedPins with hold := true }) stalledState = .next t :=
  ⟨⟨stalledState_inv, rfl, rfl, rfl, rfl⟩, ⟨activeState_inv, rfl, by decide, by decide⟩, step_next _ _ rfl⟩

/-- HOLD and the last count of the idle timer in one step: the timer ticks and is reloaded (R61). -/
theorem test_idle_timer_runs_under_hold :
    gives (exec (.step { releasedPins with hold := true }) { activeState 3 1 with itCnt := 1 }) (fun t =>
      t.trace.contains 0x20 && t.itCnt == 4000 && t.scCnt == (activeState 3 1).scCnt) = true := by decide

theorem witness_OutputsReadTheState :
    muxState.selOe = true ∧ muxState.serOe = false ∧ serState.selOe = false ∧ serState.serOe = true ∧
    muxState.resp = .none ∧ muxState.outputs.respKind ≠ 1 := by decide

/-- The closed-loop pad of script P2 (95_test_vectors.md): byte 3 of its answer is 0xFE. -/
def padAnswer : Vector Byte 9 := #v[0xFF, 0x73, 0x5A, 0xFE, 0xFF, 0x80, 0x80, 0x00, 0xFF]

def padEnv : ScriptEnv := { ScriptEnv.start with serpad := some padAnswer }

theorem witness_PseudoStatementsExpand :
    ScriptEnv.start.last < 1 ∧ 0 ≤ ScriptEnv.start.last ∧ padEnv.serpad = some padAnswer ∧
    (activeState 3 1).byteIdx = (3 : Fin 9).val ∧ (∀ v, (ScriptField.dat, v) ∉ [(ScriptField.hold, 1)]) ∧
    runStmt (.set [(.hold, 1)]) padEnv muxState = .ok ({ padEnv with hold := true }, muxState) :=
  ⟨by decide, by decide, rfl, rfl, by simp, rfl⟩

/-- R55: bit `edge >> 1` of the byte at `byte_idx`, and 1 in the gap and from edge 16 on. -/
theorem test_serpad_answer_bits :
    padEnv.datAt (activeState 3 1) = false ∧ padEnv.datAt (activeState 3 2) = true ∧
    padEnv.datAt (activeState 7 15) = false ∧ padEnv.datAt (activeState 7 16) = true ∧
    padEnv.datAt serState = true := by decide

theorem witness_Invariant_statements :
    Params.default.Legal ∧ muxState.Inv ∧ serState.Inv ∧ (activeState 3 1).Inv ∧
    (∃ t, step (muxState.giveWord 0x0000000000000FFF) = .next t) :=
  ⟨Params.default_legal, muxState_inv, serState_inv, activeState_inv,
    (next_of_gives test_step_in_mux_mode).imp fun _ h => h.1⟩

/-- A transaction in time: 12 780 steps are the whole of it (42_serial_engine.md R89), and the watchdog has 20 000. -/
theorem witness_HealthyTransactionsOutrunTheWatchdog :
    (activeState 3 1).Inv ∧ (activeState 3 1).InTime ∧ releasedPins.hold = false ∧
    (∃ t, exec (.step releasedPins) (activeState 3 1) = .next t) ∧ (activeState 0 0).transactionLeft = 12780 :=
  ⟨activeState_inv, fun _ => Nat.le_of_ble_eq_true rfl, rfl, step_next _ _ rfl, rfl⟩

theorem witness_StalledTransactionIsAbandoned :
    stalledState.Inv ∧ stalledState.serPhase = .active ∧ stalledState.wdCnt ≤ stalledState.inputs.length ∧
    ∀ w ∈ stalledState.inputs, w.getLsbD 15 = false ∧ w.getLsbD 14 = true :=
  ⟨stalledState_inv, rfl, by decide, List.forall_mem_singleton.mpr (by decide)⟩

theorem witness_ModeIsDecidedAtNinePollPeriods :
    shortParams.Legal ∧ (List.replicate 9 (0x0000000000000FFF : StimWord)).length = 9 * shortParams.tPoll ∧
    ∀ w ∈ List.replicate 9 (0x0000000000000FFF : StimWord), w.getLsbD 15 = false :=
  ⟨by decide, rfl, fun w hw => List.eq_of_mem_replicate hw ▸ (by decide)⟩

theorem witness_RegisterViewsPackTheFields : muxState.Fits ∧ { activeState 8 19 with gapCnt := 255 }.Fits ∧
    { muxState with mode := .serial }.regMode.toNat = 2 :=
  ⟨⟨by decide, by decide, by decide, by decide, by decide, by decide, by decide, by decide, by decide, by decide,
      by decide⟩,
    ⟨by decide, by decide, by decide, by decide, by decide, by decide, by decide, by decide, by decide, by decide,
      by decide⟩, rfl⟩

end Sys2Proof.Machine.Test
end

section
/-! Proofs of the statements of 00_scope.md: the refusal of illegal parameters, the ranges and the widths of the
counters, the runs that never stop, and the watchdog that no healthy transaction meets. -/

namespace Sys2Proof.Machine

variable {s : State}

/-! ## The step of the machine -/

/-- STEP by its definition (40_timing_service.md R58). -/
theorem exec_step (stim : Stim) (s : State) : exec (.step stim) s = runOp (opStep stim) s := rfl

/-- A word runs RESET or STEP, and neither is ever refused (30_encoding.md R51). -/
theorem exec_decodeTop (w : StimWord) (s : State) :
    exec (decodeTop w) s = if rstBit w then .next (opReset s) else runOp (opStep (decodeStim w)) s := by
  unfold decodeTop
  split <;> rfl

theorem runOp_ne_refused (f : State → State) (s : State) (r : Refusal) : runOp f s ≠ .refused r := by
  cases h : s.fault with
  | none => simp [runOp_of_noFault h]
  | some q => simp [runOp_of_fault h]

theorem exec_decodeTop_ne_refused (w : StimWord) (s : State) (r : Refusal) :
    exec (decodeTop w) s ≠ .refused r := by
  rw [exec_decodeTop]
  split
  · exact nofun
  · exact runOp_ne_refused _ _ _

theorem step_of_legal (h : s.params.Legal) : step s = exec (decodeTop s.nextWord) s.takeWord := if_pos h

/-! ## Parameter records (00_scope.md R5) -/

/-- A step is refused exactly for an illegal parameter record. -/
theorem step_eq_refused_iff (s : State) : step s = .refused .illegalParams ↔ ¬ s.params.Legal := by
  by_cases h : s.params.Legal
  · exact iff_of_false (step_of_legal h ▸ exec_decodeTop_ne_refused _ _ _) (not_not_intro h)
  · exact iff_of_true (if_neg h) h

/-- Distinct report bytes copy distinct slots (R5 item 5). -/
theorem serialPerm_bijective_iff (q : SerialPerm) :
    q.Bijective ↔ ∀ i j : Fin 6, q.src[i] = q.src[j] → i = j := by
  have hl : q.src.toList.length = 6 := q.src.length_toList
  rw [SerialPerm.Bijective, List.nodup_iff_injective_getElem]
  constructor
  · intro h i j e
    have := @h (i.cast hl.symm) (j.cast hl.symm) (by simpa using e)
    simpa [Fin.ext_iff] using this
  · intro h i j e
    have := h (i.cast hl) (j.cast hl) (by simpa using e)
    simpa [Fin.ext_iff] using this

/-- Settles O9: a step tests nothing but the record's legality, which is the six rules of R5. -/
theorem illegalParametersRefused : Obligations.IllegalParametersRefused := by
  unfold Obligations.IllegalParametersRefused
  intro s
  rw [step_eq_refused_iff, not_iff_not, Params.Legal, serialPerm_bijective_iff]
  constructor
  · rintro ⟨hsettle, hwd, hchord, hperm, htb, hpoll, hgap, hts, hhalf, he, hx, htwd, hidle⟩
    exact ⟨hsettle, he.1, hwd, hchord, hperm, htb, hpoll.1, hpoll.2, hgap.1, hgap.2, hts, hhalf.1, hhalf.2, he.2, hx,
      htwd.1, htwd.2, hidle.1, hidle.2⟩
  · rintro ⟨hsettle, he, hwd, hchord, hperm, hrange⟩
    exact ⟨hsettle, hwd, hchord, hperm, by omega⟩

/-! ## Widths (R8, R10) -/

/-- The legal ranges lie within the widths, because the parameters that bound them do (R4). -/
theorem State.InRange.fits (h : s.InRange) (hp : s.params.Legal) : s.Fits where
  phase := Nat.lt_of_le_of_lt h.phase (by decide)
  stCnt := by have := h.stCnt; have := hp.tSettle; omega
  ptPeriod := by have := h.ptPeriod; have := hp.tPoll; have := hp.tGap; omega
  ptCnt := Nat.lt_of_le_of_lt h.ptCnt (by decide)
  gapCnt := by have := h.gapCnt; have := hp.txnGap; omega
  byteIdx := Nat.lt_of_le_of_lt h.byteIdx (by decide)
  edgeIdx := by have := h.edgeIdx; have := hp.eByte; omega
  scCnt := by have := h.scCnt; have := hp.tHalf; omega
  wdCnt := by have := h.wdCnt; have := hp.tWd; omega
  idleCnt := Nat.lt_of_le_of_lt h.idleCnt (by decide)
  itCnt := by have := h.itCnt; have := hp.tIdle; omega

/-- Settles O53: each counter is in its legal range, which fits its width. -/
theorem countersFitTheirWidths : Obligations.CountersFitTheirWidths := by
  unfold Obligations.CountersFitTheirWidths
  exact fun s h => h.range.fits h.legal

/-! ## The invariant through a whole step -/

/-- S2 to S9 without the fault tests: none of them can meet a fault (10_state.md R34). -/
theorem afterRequest_of_mid (h : s.Mid true 1) :
    afterRequest s = subTransmit (subBuild (subArbitrate (subSettle (subPollTimer (subSerialTimer (subWatchdog
      (subIdleTimer s))))))) ∧ (afterRequest s).Inv := by
  have h2 := subIdleTimer_mid h
  have h3 := subWatchdog_mid h2
  have h4 := subSerialTimer_mid h3
  have h5 := subPollTimer_mid h4
  have h6 := subSettle_mid h5
  obtain ⟨h7, hd⟩ := subArbitrate_mid h6
  obtain ⟨h8, hc⟩ := subBuild_mid h7 hd
  obtain ⟨h9, hc'⟩ := subTransmit_mid h8 hc
  have e : afterRequest s = subTransmit (subBuild (subArbitrate (subSettle (subPollTimer (subSerialTimer (subWatchdog
      (subIdleTimer s))))))) := by
    unfold afterRequest
    simp only [State.andThen_of_noFault, h.noFault, h2.noFault, h3.noFault, h4.noFault, h5.noFault, h6.noFault,
      h7.noFault, h8.noFault]
  exact ⟨e, e ▸ h9.inv hc'⟩

/-- STEP keeps the invariant, whatever the inputs. -/
theorem opStep_inv (h : s.Mid true 1) (stim : Stim) : (opStep stim s).Inv :=
  (afterRequest_of_mid (subRequest_mid (h.beginStep stim))).2

/-- Right after reset the invariant holds (70_reset_and_hazards.md R130). -/
theorem resetWith_inv {p : Params} (hp : p.Legal) : (State.resetWith p).Inv where
  legal := hp
  noFault := rfl
  modeLegal := nofun
  oneEngine := nofun
  serEnIff := by simp [State.resetWith]
  serOeIff := by simp [State.resetWith]
  ptEnIff := by simp [State.resetWith]
  selOeIff := by simp [State.resetWith]
  consumed := rfl
  gapIdle := fun _ => ⟨rfl, rfl, rfl, rfl, rfl, rfl⟩
  activeAtt := nofun
  axes := fun _ => ⟨.inr (.inl rfl), .inr (.inl rfl), .inr (.inl rfl), .inr (.inl rfl)⟩
  latchDue := nofun
  range := ⟨le_rfl, Nat.zero_le _, .inl rfl, hp.tPoll.1, hp.tPoll.2, Nat.zero_le _, Nat.zero_le _,
    Nat.zero_lt_of_lt hp.eByte.1, hp.tHalf.1, le_rfl, Nat.zero_le _, Nat.zero_le _, hp.tIdle.1, le_rfl⟩
  latchInTime := nofun
  latchMux := nofun
  serialPhase := nofun
  packetPeriod := fun _ => rfl
  selectLevel := by simp [State.resetWith]
  activeSerial := nofun
  armedCount := nofun
  idleBelowRate := fun _ => restart_below_rate _
  rawHigh := by intro c p; simp [State.resetWith]

theorem opReset_inv (h : s.params.Legal) : (opReset s).Inv := by
  have hm : (opReset s).Mid true 1 := (resetWith_inv h).mid.congr rfl
  exact hm.inv rfl

/-- A step of any word from a state that meets the invariant goes on to one that meets it. -/
theorem step_inv (h : s.Inv) : ∃ t, step s = .next t ∧ t.Inv := by
  rw [step_of_legal h.legal, exec_decodeTop]
  split
  · exact ⟨_, rfl, opReset_inv h.legal⟩
  · exact ⟨_, runOp_of_noFault (s := s.takeWord) h.noFault _, opStep_inv h.mid.takeWord _⟩

/-- A run goes on after a step that does (Host/Core.lean). -/
theorem run_succ_of_next {t : State} (h : step s = .next t) (n : Nat) : core.run (n + 1) s = core.run n t := by
  have hc : core.step s = .next t := h
  simp only [Host.Core.run, hc]

/-- A run of any length from a state that meets the invariant goes on to one that meets it. -/
theorem run_inv (n : Nat) (h : s.Inv) : ∃ t, core.run n s = .next t ∧ t.Inv := by
  induction n generalizing s with
  | zero => exact ⟨s, rfl, h⟩
  | succ n ih =>
    obtain ⟨u, hu, hi⟩ := step_inv h
    obtain ⟨t, ht, hit⟩ := ih hi
    refine ⟨t, ?_, hit⟩
    rw [run_succ_of_next hu]
    exact ht

/-- The words to come are no part of the invariant. -/
theorem State.Inv.withInputs (h : s.Inv) (ws : List StimWord) : State.Inv { s with inputs := ws } := by
  have hm : State.Mid true 1 { s with inputs := ws } := h.mid.congr rfl
  exact hm.inv h.consumed

/-- Settles O52: the reset state meets the invariant, every step keeps it, and it excludes a fault. -/
theorem legalRunsNeverStop : Obligations.LegalRunsNeverStop := by
  unfold Obligations.LegalRunsNeverStop
  intro p ws hp n
  obtain ⟨t, ht, hi⟩ := run_inv n ((resetWith_inv hp).withInputs ws)
  exact ⟨t, ht, hi.legal, hi.noFault⟩

/-! ## What a sub-step keeps

A view `f` of the state that `raise`, a counter write and a handler keep is kept by the timer made of them. -/

section Keeps
variable {α : Type} {f : State → α} {put : State → Nat → State} {handler : State → State}

theorem State.andThen_keeps {s : State} {a : α} {g : State → State} (hs : f s = a) (hg : ∀ t, f t = a → f (g t) = a) :
    f (s.andThen g) = a := by
  rcases s.andThen_cases g with ⟨-, e⟩ | ⟨r, -, e⟩ <;> rw [e]
  · exact hg s hs
  · exact hs

theorem State.countDown_keeps (hr : ∀ s r, f (State.raise s r) = f s) (hput : ∀ s v, f (put s v) = f s) (s : State)
    (cnt : Nat) : f (s.countDown put cnt) = f s := by
  cases cnt with
  | zero => exact hr s _
  | succ n => exact hput s n

theorem periodicTimer_keeps (hr : ∀ s r, f (State.raise s r) = f s) (hput : ∀ s v, f (put s v) = f s)
    (hh : ∀ s, f (handler s) = f s) (en : Bool) (cnt : Nat) (period : State → Nat) (s : State) :
    f (periodicTimer en cnt put handler period s) = f s := by
  rcases periodicTimer_cases en cnt put handler period s with ⟨-, e⟩ | ⟨-, -, e⟩ | ⟨-, -, e⟩ <;> rw [e]
  · exact State.andThen_keeps (hh s) fun t ht => (hput t _).trans ht
  · exact State.countDown_keeps hr hput s cnt

theorem oneShot_keeps (hr : ∀ s r, f (State.raise s r) = f s) (hput : ∀ s v, f (put s v) = f s)
    (hh : ∀ s, f (handler s) = f s) (armed : Bool) (cnt last : Nat) (s : State) :
    f (oneShot armed cnt last put handler s) = f s := by
  rcases oneShot_cases armed cnt last put handler s with ⟨-, e⟩ | ⟨-, -, e⟩ | ⟨-, -, e⟩ <;> rw [e]
  · exact hh s
  · exact State.countDown_keeps hr hput s cnt

end Keeps

/-! ## The transaction and its watchdog -/

/-- The elements that a serial transaction and its watchdog run on, with the parameters they read. -/
structure Transaction where
  params : Params
  serEn : Bool
  serPhase : SerPhase
  byteIdx : Nat
  edgeIdx : Nat
  scCnt : Nat
  wdArmed : Bool
  wdCnt : Nat

def State.transaction (s : State) : Transaction where
  params := s.params
  serEn := s.serEn
  serPhase := s.serPhase
  byteIdx := s.byteIdx
  edgeIdx := s.edgeIdx
  scCnt := s.scCnt
  wdArmed := s.wdArmed
  wdCnt := s.wdCnt

/-- The watchdog's expiry (code 0x14, 30_encoding.md R52) stands in the step's trace. -/
def State.expired (s : State) : Prop := 0x14 ∈ s.trace

theorem State.emit_expired {c : Byte} (hc : 0x14 ≠ c) (s : State) : (s.emit c).expired = s.expired := by
  rw [State.expired, State.emit_trace, List.mem_append, List.mem_singleton, or_iff_left hc, State.expired]

/-- What every sub-step but S3, S4 and S7 keeps: the transaction, the step's inputs, whether the watchdog expired. -/
def State.watch (s : State) : Transaction × Stim × Prop := (s.transaction, s.pins, s.expired)

theorem State.emit_watch {c : Byte} (hc : 0x14 ≠ c) (s : State) : (s.emit c).watch = s.watch :=
  Prod.ext rfl (Prod.ext rfl (s.emit_expired hc))

theorem subRequest_watch (s : State) : (subRequest s).watch = s.watch := by
  unfold subRequest
  split
  · cases s.pins.request with
    | getReport => exact State.emit_watch (by decide) _
    | getIdle => exact State.emit_watch (by decide) _
    | setIdle rate => exact State.emit_watch (by decide) _
    | unhandled rqt rq => exact State.emit_watch (by decide) _
  · rfl

theorem State.putItCnt_watch (s : State) (v : Nat) : (s.putItCnt v).watch = s.watch := by
  unfold State.putItCnt; split <;> rfl
theorem State.putIdleCnt_watch (s : State) (v : Nat) : (s.putIdleCnt v).watch = s.watch := by
  unfold State.putIdleCnt; split <;> rfl
theorem State.putPtCnt_watch (s : State) (v : Nat) : (s.putPtCnt v).watch = s.watch := by
  unfold State.putPtCnt; split <;> rfl
theorem State.putStCnt_watch (s : State) (v : Nat) : (s.putStCnt v).watch = s.watch := by
  unfold State.putStCnt; split <;> rfl
theorem State.putPhase_watch (s : State) (v : Nat) : (s.putPhase v).watch = s.watch := by
  unfold State.putPhase; split <;> rfl

theorem State.countIdle_watch (s : State) : s.countIdle.watch = s.watch :=
  State.andThen_keeps (f := State.watch) (s.putIdleCnt_watch _) fun t ht => by split <;> exact ht

theorem opIdleTick_watch (s : State) : (opIdleTick s).watch = s.watch := by
  have he := State.emit_watch (c := 0x20) (by decide) s
  unfold opIdleTick
  split
  · exact (State.countIdle_watch _).trans he
  · exact he

theorem subIdleTimer_watch (s : State) : (subIdleTimer s).watch = s.watch :=
  periodicTimer_keeps (fun _ _ => rfl) State.putItCnt_watch opIdleTick_watch _ _ _ s

theorem opPollTick_watch (s : State) : (opPollTick s).watch = s.watch := by
  unfold opPollTick
  split
  · exact State.andThen_keeps (f := State.watch) (State.putPhase_watch _ _) fun t ht =>
      (State.emit_watch (by decide) _).trans ht
  · split
    · exact State.emit_watch (by decide) _
    · split
      · exact State.emit_watch (by decide) _
      · rfl

theorem subPollTimer_watch (s : State) : (subPollTimer s).watch = s.watch :=
  periodicTimer_keeps (fun _ _ => rfl) State.putPtCnt_watch opPollTick_watch _ _ _ s

theorem opSampleLatch_watch (s : State) : (opSampleLatch s).watch = s.watch := by
  unfold opSampleLatch
  split
  · exact State.emit_watch (by decide) _
  · rfl

theorem subSettle_watch (s : State) : (subSettle s).watch = s.watch :=
  oneShot_keeps (fun _ _ => rfl) State.putStCnt_watch opSampleLatch_watch _ _ _ s

theorem State.build_watch (s : State) (r : Report) : (s.build r).watch = s.watch := by
  rw [State.build_eq]; rfl

theorem subBuild_watch (s : State) : (subBuild s).watch = s.watch := by
  unfold subBuild
  split
  · cases s.mode with
    | mux => exact (State.emit_watch (by decide) _).trans (s.build_watch _)
    | serial => exact (State.emit_watch (by decide) _).trans (s.build_watch _)
    | undecided => rfl
    | three => rfl
  · rfl

theorem subTransmit_watch (s : State) : (subTransmit s).watch = s.watch := by
  unfold subTransmit
  split
  · exact State.emit_watch (by decide) _
  · rfl

/-- Being in time is a matter of the transaction alone. -/
theorem State.InTime.congr {t : State} (h : s.InTime) (e : t.transaction = s.transaction) : t.InTime := by
  simp only [State.transaction, Transaction.mk.injEq] at e
  obtain ⟨hparams, -, hphase, hbyte, hedge, hsc, -, hwd⟩ := e
  simpa only [State.InTime, State.transactionLeft, hparams, hphase, hbyte, hedge, hsc, hwd] using h

theorem State.InTime.of_gap (h : s.serPhase = .gap) : s.InTime := fun ha => by simp [h] at ha

/-! ## S3 -/

variable {early : Bool} {k : Nat}

/-- Between transactions the watchdog is not armed (10_state.md R34 item 4). -/
theorem subWatchdog_of_gap (h : s.Mid early k) (hp : s.serPhase = .gap) : subWatchdog s = s := by
  obtain ⟨-, -, ha, -⟩ := h.gapIdle hp
  unfold subWatchdog oneShot
  rw [if_neg (by simp [ha])]

/-- In a transaction the watchdog counts down until its last step (40_timing_service.md R62). -/
theorem subWatchdog_of_active (h : s.Mid early k) (hp : s.serPhase = .active) (hw : 1 < s.wdCnt) :
    subWatchdog s = { s with wdCnt := s.wdCnt - 1 } := by
  obtain ⟨-, ha⟩ := h.activeSerial hp
  have hr := h.range.wdCnt
  unfold subWatchdog oneShot
  rw [if_pos ha, if_neg (by omega), State.countDown_of_pos _ (by omega), State.putWdCnt_of_le (by omega)]

/-- As `InTime` between S3 and S4, where the watchdog has counted this step and the serial timer has not. -/
def State.InTimeAtSerial (s : State) : Prop := s.serPhase = .active → s.transactionLeft ≤ s.wdCnt

/-- S3 of a transaction in time counts at most once and does not expire. -/
theorem subWatchdog_of_inTime (h : s.Mid early k) (ht : s.InTime) :
    (subWatchdog s).InTimeAtSerial ∧ (subWatchdog s).pins = s.pins ∧ (subWatchdog s).expired = s.expired := by
  cases hp : s.serPhase with
  | gap =>
    rw [subWatchdog_of_gap h hp]
    exact ⟨fun ha => (ht ha).le, rfl, rfl⟩
  | active =>
    have hsc := h.range.scCntPos
    have hlt := ht hp
    have hw : 1 < s.wdCnt := by rw [State.transactionLeft] at hlt; omega
    rw [subWatchdog_of_active h hp hw]
    exact ⟨fun _ => Nat.le_sub_one_of_lt hlt, rfl, rfl⟩

/-! ## S4 -/

/-- The serial ticks that a transaction still needs after the next one (42_serial_engine.md R84, R89). -/
def State.ticksLeft (s : State) : Nat := (8 - s.byteIdx) * s.params.eByte + (s.params.eByte - 1 - s.edgeIdx)

theorem State.transactionLeft_eq (s : State) : s.transactionLeft = s.ticksLeft * s.params.tHalf + s.scCnt := rfl

/-- The advance to the next edge of a byte (R84). -/
theorem edgeAdvance_of_edge (b : Nat) {e : Nat} (he : e + 1 < s.params.eByte) :
    edgeAdvance b e s = { s with edgeIdx := e + 1 } := by
  unfold edgeAdvance
  rw [if_neg (by omega), State.putEdgeIdx_of_lt he]

/-- The advance to the next byte of a transaction (R84). -/
theorem edgeAdvance_of_byte (hf : s.fault = none) {b e : Nat} (hb : b + 1 ≤ 8) (he : e + 1 = s.params.eByte) :
    edgeAdvance b e s = { s with byteIdx := b + 1, edgeIdx := 0 } := by
  unfold edgeAdvance
  rw [if_pos he, if_neg (by omega), State.putByteIdx_of_le hb, State.andThen_of_noFault (by exact hf)]
  exact State.putEdgeIdx_of_lt (Nat.lt_of_lt_of_eq e.succ_pos he)

/-- The advance past the last edge of byte 8 (R84, R85). -/
theorem edgeAdvance_of_last {e : Nat} (he : e + 1 = s.params.eByte) : edgeAdvance 8 e s = opSerComplete s := by
  unfold edgeAdvance
  rw [if_pos he, if_pos rfl]

/-- The advance of an edge ends the transaction or takes one tick off it. -/
theorem edgeAdvance_progress {b e : Nat} (hf : s.fault = none) (hb : s.byteIdx = b) (he : s.edgeIdx = e)
    (hb8 : b ≤ 8) (heE : e < s.params.eByte) :
    (edgeAdvance b e s).serPhase = .gap ∨
      ((edgeAdvance b e s).ticksLeft + 1 = s.ticksLeft ∧ (edgeAdvance b e s).params = s.params ∧
        (edgeAdvance b e s).wdCnt = s.wdCnt) := by
  by_cases hedge : e + 1 < s.params.eByte
  · rw [edgeAdvance_of_edge b hedge]
    refine .inr ⟨?_, rfl, rfl⟩
    simp only [State.ticksLeft, he]
    omega
  · have hlast : e + 1 = s.params.eByte := by omega
    by_cases hbyte : b + 1 ≤ 8
    · rw [edgeAdvance_of_byte hf hbyte hlast]
      refine .inr ⟨?_, rfl, rfl⟩
      have hs : 8 - b = 8 - (b + 1) + 1 := by omega
      simp only [State.ticksLeft, hb, he, hs, Nat.succ_mul]
      omega
    · obtain rfl : b = 8 := by omega
      rw [edgeAdvance_of_last hlast]
      exact .inl rfl

/-- An edge ends the transaction or takes one tick off it: its four actions leave the position alone. -/
theorem opSerEdge_progress (h : s.Mid early k) :
    (opSerEdge s).serPhase = .gap ∨
      ((opSerEdge s).ticksLeft + 1 = s.ticksLeft ∧ (opSerEdge s).params = s.params ∧
        (opSerEdge s).wdCnt = s.wdCnt) := by
  have hb := h.range.byteIdx
  have he := h.range.edgeIdx
  unfold opSerEdge
  rw [if_pos ⟨hb, he⟩, edge_actions]
  exact edgeAdvance_progress h.noFault rfl rfl hb he

/-- A gap tick writes `gap_cnt` and the trace only (R78). -/
theorem opSerGap_keeps {α : Type} {f : State → α} (hr : ∀ s r, f (State.raise s r) = f s)
    (hgap : ∀ (s : State) v, f { s with gapCnt := v } = f s) (hemit : ∀ s, f (State.emit s 0x10) = f s) (s : State) :
    f (opSerGap s) = f s := by
  have hput : ∀ s v, f (State.putGapCnt s v) = f s := fun s v => by
    unfold State.putGapCnt
    split
    · exact hgap s v
    · exact hr s _
  exact State.andThen_keeps (State.countDown_keeps hr hput s _) fun t ht => (hemit t).trans ht

/-- A gap tick starts no transaction. -/
theorem opSerGap_serPhase (s : State) : (opSerGap s).serPhase = s.serPhase :=
  opSerGap_keeps (f := State.serPhase) (fun _ _ => rfl) (fun _ _ => rfl) (fun _ => rfl) s

/-- A transaction starts with its 9·E_BYTE ticks before the watchdog's T_WD (00_scope.md R5 item 3). -/
theorem opSerStart_inTime (h : s.params.Legal) : State.InTime { opSerStart s with scCnt := s.params.tHalf } := by
  intro _
  have hw := h.watchdog
  have hE := h.eByte
  have hticks : (8 - 0) * s.params.eByte + (s.params.eByte - 1 - 0) + 1 = 9 * s.params.eByte := by omega
  show ((8 - 0) * s.params.eByte + (s.params.eByte - 1 - 0)) * s.params.tHalf + s.params.tHalf < s.params.tWd
  rw [← Nat.succ_mul, Nat.succ_eq_add_one, hticks]
  exact hw

/-- A serial tick and the reload after it leave the transaction in time. -/
theorem opSerTick_inTime (h : s.Mid early k) (hd : s.InTimeAtSerial) (hsc : s.scCnt = 1) :
    State.InTime { opSerTick s with scCnt := (opSerTick s).params.tHalf } := by
  unfold opSerTick
  cases hp : s.serPhase with
  | gap =>
    simp only []
    split
    · exact State.InTime.of_gap ((opSerGap_serPhase s).trans hp)
    · exact opSerStart_inTime h.legal
  | active =>
    rcases opSerEdge_progress h with hg | ⟨hleft, hparams, hwd⟩
    · exact State.InTime.of_gap hg
    · intro _
      have hle := hd hp
      rw [State.transactionLeft_eq, ← hleft, hsc, Nat.succ_mul] at hle
      show (opSerEdge s).ticksLeft * (opSerEdge s).params.tHalf + (opSerEdge s).params.tHalf < (opSerEdge s).wdCnt
      rw [hparams, hwd]
      omega

theorem subSerialTimer_inTime (h : s.Mid early k) (hd : s.InTimeAtSerial) (hh : s.pins.hold = false) :
    (subSerialTimer s).InTime := by
  have hpos := h.range.scCntPos
  have hle := h.range.scCnt
  unfold subSerialTimer
  rcases periodicTimer_cases (s.serEn && !s.pins.hold) s.scCnt State.putScCnt opSerTick (fun t => t.params.tHalf) s with
    ⟨hen, e⟩ | ⟨hen, h1, e⟩ | ⟨-, hne, e⟩
  · rw [e]
    intro hp
    have := h.serEnIff.mpr (h.activeSerial hp).1
    simp [hh, this] at hen
  · have hm : s.mode = .serial := h.serEnIff.mp (Bool.and_eq_true_iff.mp hen).1
    have ht := opSerTick_mid h hm
    rw [e, State.andThen_of_noFault ht.noFault, State.putScCnt_of_mem ⟨ht.legal.tHalf.1, le_rfl⟩]
    exact opSerTick_inTime h hd h1
  · rw [e, State.countDown_of_pos _ hpos, State.putScCnt_of_mem (by omega)]
    intro hp
    have hlt := hd hp
    rw [State.transactionLeft_eq] at hlt
    show s.ticksLeft * s.params.tHalf + (s.scCnt - 1) < s.wdCnt
    omega

theorem opSerGap_expired (s : State) : (opSerGap s).expired = s.expired :=
  opSerGap_keeps (fun _ _ => rfl) (fun _ _ => rfl) (State.emit_expired (by decide)) s

theorem edgeAdvance_expired (b e : Nat) (s : State) : (edgeAdvance b e s).expired = s.expired := by
  have hedge : ∀ (t : State) (v : Nat), (t.putEdgeIdx v).expired = t.expired := fun t v => by
    unfold State.putEdgeIdx; split <;> rfl
  unfold edgeAdvance
  split
  · split
    · exact State.emit_expired (by decide) _
    · exact State.andThen_keeps (f := State.expired) (by unfold State.putByteIdx; split <;> rfl)
        fun t ht => (hedge t 0).trans ht
  · exact hedge s _

theorem opSerEdge_expired (s : State) : (opSerEdge s).expired = s.expired := by
  unfold opSerEdge
  split
  · rw [edgeAdvance_expired, edge_actions]
    exact State.emit_expired (by decide) s
  · rfl

theorem opSerTick_expired (s : State) : (opSerTick s).expired = s.expired := by
  unfold opSerTick
  cases s.serPhase with
  | gap =>
    simp only []
    split
    · exact opSerGap_expired s
    · exact State.emit_expired (by decide) _
  | active => exact opSerEdge_expired s

theorem subSerialTimer_expired (s : State) : (subSerialTimer s).expired = s.expired :=
  periodicTimer_keeps (fun _ _ => rfl) (fun s v => by unfold State.putScCnt; split <;> rfl) opSerTick_expired _ _ _ s

/-! ## S7 -/

theorem subArbitrate_expired (s : State) : (subArbitrate s).expired = s.expired := by
  have he : (s.emit 0x30).expired = s.expired := State.emit_expired (by decide) s
  unfold subArbitrate
  cases s.mode with
  | undecided =>
    simp only []
    split
    · unfold opArbitrate
      split
      · exact he
      · exact he
    · rfl
  | mux => rfl
  | serial => rfl
  | three => rfl

/-- Arbitration selects multiplexed mode and leaves the serial engine alone, or serial mode and starts it in the gap
(43_mode_arbiter.md R94, R95). -/
theorem subArbitrate_inTime (h : s.Mid early k) (ht : s.InTime) : (subArbitrate s).InTime := by
  unfold subArbitrate
  cases hm : s.mode with
  | undecided =>
    simp only []
    split
    · unfold opArbitrate
      split
      · exact State.InTime.of_gap rfl
      · exact ht.congr rfl
    · exact ht
  | mux => exact ht
  | serial => exact ht
  | three => exact absurd hm h.modeLegal

/-! ## The whole step -/

/-- S3 and S4 without HOLD: the watchdog counts one and the serial timer one (70_reset_and_hazards.md R135). -/
theorem serialSubSteps_inTime (h : s.Mid true 1) (ht : s.InTime) (hh : s.pins.hold = false) :
    (subSerialTimer (subWatchdog s)).InTime ∧ (subSerialTimer (subWatchdog s)).expired = s.expired := by
  obtain ⟨hat, hpins, hexp⟩ := subWatchdog_of_inTime h ht
  exact ⟨subSerialTimer_inTime (subWatchdog_mid h) hat (hpins ▸ hh), (subSerialTimer_expired _).trans hexp⟩

/-- S5 to S9 do not touch a transaction in progress. -/
theorem lateSubSteps_inTime (h : s.Mid true 1) (ht : s.InTime) :
    (subTransmit (subBuild (subArbitrate (subSettle (subPollTimer s))))).InTime ∧
      (subTransmit (subBuild (subArbitrate (subSettle (subPollTimer s))))).expired = s.expired := by
  have hbefore := (subSettle_watch _).trans (subPollTimer_watch s)
  have hafter := fun u => (subTransmit_watch _).trans (subBuild_watch u)
  have hmid := subSettle_mid (subPollTimer_mid h)
  have hseven := subArbitrate_inTime hmid (ht.congr (congrArg Prod.fst hbefore))
  exact ⟨hseven.congr (congrArg Prod.fst (hafter _)), (congrArg (·.2.2) (hafter _)).trans
    ((subArbitrate_expired _).trans (congrArg (·.2.2) hbefore))⟩

/-- A STEP without HOLD keeps a transaction in time, and its watchdog does not expire. -/
theorem opStep_inTime (h : s.Mid true 1) (ht : s.InTime) {stim : Stim} (hh : stim.hold = false) :
    (opStep stim s).InTime ∧ ¬ (opStep stim s).expired := by
  have hone := subRequest_mid (h.beginStep stim)
  have htwo := subIdleTimer_mid hone
  have hwatch := (subIdleTimer_watch _).trans (subRequest_watch (s.beginStep stim))
  have hpins := congrArg (·.2.1.hold) hwatch
  have hin := (ht.congr (t := s.beginStep stim) rfl).congr (congrArg Prod.fst hwatch)
  obtain ⟨hin4, hexp4⟩ := serialSubSteps_inTime htwo hin (hpins.trans hh)
  obtain ⟨hin9, hexp9⟩ := lateSubSteps_inTime (subSerialTimer_mid (subWatchdog_mid htwo)) hin4
  have hexp := hexp9.trans (hexp4.trans (congrArg (·.2.2) hwatch))
  unfold opStep
  rw [(afterRequest_of_mid hone).1]
  exact ⟨hin9, hexp ▸ List.not_mem_nil⟩

/-- Settles O54: each step without HOLD takes one from the steps left and at most one from the watchdog's count, and a
transaction starts with more of the latter. -/
theorem healthyTransactionsOutrunTheWatchdog : Obligations.HealthyTransactionsOutrunTheWatchdog := by
  unfold Obligations.HealthyTransactionsOutrunTheWatchdog
  refine ⟨fun p _ => State.InTime.of_gap rfl, ?_⟩
  intro s t stim h hin hh e
  rw [exec_step] at e
  obtain ⟨-, rfl⟩ := runOp_eq_next.mp e
  exact opStep_inTime h.mid hin hh

/-! ## Values out of range (60_exceptions.md R119) -/

/-- A count that has no value below it, or none in its range, is a fault and no write (R10; log 11). -/
theorem State.countDown_outOfRange {put : State → Nat → State} {cnt : Nat}
    (h : cnt = 0 ∨ put s (cnt - 1) = s.raise .counterRange) : s.countDown put cnt = s.raise .counterRange := by
  cases cnt with
  | zero => exact s.countDown_zero put
  | succ n => exact h.resolve_left n.succ_ne_zero

theorem periodicTimer_outOfRange {put : State → Nat → State} {cnt : Nat} (handler : State → State)
    (period : State → Nat) (h1 : cnt ≠ 1) (h : cnt = 0 ∨ put s (cnt - 1) = s.raise .counterRange) :
    periodicTimer true cnt put handler period s = s.raise .counterRange := by
  rw [periodicTimer, if_pos rfl, if_neg h1, State.countDown_outOfRange h]

theorem oneShot_outOfRange {put : State → Nat → State} {cnt last : Nat} (handler : State → State)
    (hlast : cnt ≠ last) (h : cnt = 0 ∨ put s (cnt - 1) = s.raise .counterRange) :
    oneShot true cnt last put handler s = s.raise .counterRange := by
  rw [oneShot, if_pos rfl, if_neg hlast, State.countDown_outOfRange h]

/-- A poll tick outside the nine phases is a fault, and the timer is not reloaded (41_mux_engine.md R68). -/
theorem subPollTimer_phaseOutOfRange (hen : s.ptEn = true) (hcnt : s.ptCnt = 1) (hp : 8 < s.phase) :
    subPollTimer s = s.raise .stateRange := by
  have htick : opPollTick s = s.raise .stateRange := by
    rw [opPollTick, if_neg (by omega), if_neg (by omega), if_neg (by omega)]
  rw [subPollTimer, periodicTimer, if_pos hen, if_pos hcnt, htick]
  exact State.andThen_of_fault rfl _

theorem opSampleLatch_phaseOutOfRange (hp : 7 < s.phase) : opSampleLatch s = s.raise .stateRange := by
  rw [opSampleLatch, rawIndex_of_le hp]

theorem subArbitrate_three (hm : s.mode = .three) : subArbitrate s = s.raise .stateRange := by
  rw [subArbitrate, hm]

theorem subIdleTimer_outOfRange (h : s.itCnt = 0 ∨ s.params.tIdle + 1 < s.itCnt) :
    subIdleTimer s = s.raise .counterRange :=
  periodicTimer_outOfRange _ _ (by omega) (h.imp_right fun hlt => State.putItCnt_of_not (by omega))

theorem subWatchdog_outOfRange (ha : s.wdArmed = true) (h : s.wdCnt = 0 ∨ s.params.tWd + 1 < s.wdCnt) :
    subWatchdog s = s.raise .counterRange := by
  rw [subWatchdog, ha]
  exact oneShot_outOfRange _ (by omega) (h.imp_right fun hlt => State.putWdCnt_of_lt (by omega))

theorem subSerialTimer_outOfRange (hen : s.serEn = true) (hh : s.pins.hold = false)
    (h : s.scCnt = 0 ∨ s.params.tHalf + 1 < s.scCnt) : subSerialTimer s = s.raise .counterRange := by
  rw [subSerialTimer, hen, hh]
  exact periodicTimer_outOfRange _ _ (by omega) (h.imp_right fun hlt => State.putScCnt_of_not (by omega))

theorem subPollTimer_outOfRange (hen : s.ptEn = true) (h : s.ptCnt = 0 ∨ 65536 < s.ptCnt) :
    subPollTimer s = s.raise .counterRange := by
  rw [subPollTimer, hen]
  exact periodicTimer_outOfRange _ _ (by omega) (h.imp_right fun hlt => State.putPtCnt_of_not (by omega))

theorem subSettle_outOfRange (hn : s.needSample = true) (h : s.params.tSettle + 1 < s.stCnt) :
    subSettle s = s.raise .counterRange := by
  rw [subSettle, hn]
  exact oneShot_outOfRange _ (by omega) (.inr (State.putStCnt_of_lt (by omega)))

theorem opSerGap_outOfRange (h : s.gapCnt = 0 ∨ s.params.txnGap + 1 < s.gapCnt) :
    opSerGap s = s.raise .counterRange := by
  rw [opSerGap, State.countDown_outOfRange (h.imp_right fun hlt => State.putGapCnt_of_lt (by omega))]
  exact State.andThen_of_fault rfl _

theorem opSerEdge_outOfRange (h : 8 < s.byteIdx ∨ s.params.eByte ≤ s.edgeIdx) :
    opSerEdge s = s.raise .counterRange := by
  rw [opSerEdge, if_neg (by omega)]

theorem opIdleTick_outOfRange (hr : s.idleRate ≠ 0) (he : s.idleElapsed = false) (hc : 255 ≤ s.idleCnt) :
    opIdleTick s = (s.emit 0x20).raise .counterRange := by
  rw [opIdleTick, if_pos ⟨hr, he⟩, State.countIdle, State.emit_idleCnt, State.putIdleCnt_of_lt (Nat.lt_succ_of_le hc)]
  exact State.andThen_of_fault rfl _

/-- Settles O41: each check raises its fault on the state it stands in. -/
theorem outOfRangeStatesFault : Obligations.OutOfRangeStatesFault := by
  unfold Obligations.OutOfRangeStatesFault
  intro s hf
  have hop : ∀ {f : State → State} {t : State}, f s = t → runOp f s = .next t :=
    fun e => e ▸ runOp_of_noFault hf _
  exact ⟨fun hp hen hcnt => subPollTimer_phaseOutOfRange hen hcnt hp,
    fun hp => hop (opSampleLatch_phaseOutOfRange hp),
    subArbitrate_three,
    subIdleTimer_outOfRange,
    subWatchdog_outOfRange,
    subSerialTimer_outOfRange,
    subPollTimer_outOfRange,
    subSettle_outOfRange,
    fun h => hop (opSerGap_outOfRange h),
    fun h => hop (opSerEdge_outOfRange h),
    fun hr he hc => hop (opIdleTick_outOfRange hr he hc)⟩

end Sys2Proof.Machine
end

section
/-! Proofs of the statements of 10_state.md: the invariant, what a step takes and answers, the outputs and the register
views, what each sub-step leaves alone, and where the inputs are read. -/

namespace Sys2Proof.Machine

variable {s t : State}

/-! ## The invariant (R34) -/

/-- Settles O51: a step from a state that meets the invariant answers one state, and it meets the invariant. -/
theorem stepKeepsTheInvariant : Obligations.StepKeepsTheInvariant := by
  unfold Obligations.StepKeepsTheInvariant
  intro s t h e
  obtain ⟨u, hu, hinv⟩ := step_inv h
  obtain rfl : u = t := by simpa [hu] using e
  exact hinv

/-- Settles O50: the reset state of every legal record, that of the defaults among them. -/
theorem invariantHoldsAtReset : Obligations.InvariantHoldsAtReset := by
  unfold Obligations.InvariantHoldsAtReset
  exact ⟨fun _ => resetWith_inv, resetWith_inv Params.default_legal⟩

/-! ## Which operation a step runs (R30, R36) -/

theorem State.nextWord_of_cons {w : StimWord} {ws : List StimWord} (h : s.inputs = w :: ws) : s.nextWord = w := by
  simp only [State.nextWord, h]

theorem State.nextWord_of_nil (h : s.inputs = []) : s.nextWord = Config.freeStim s.seq := by
  simp only [State.nextWord, h]

theorem State.takeWord_of_cons {w : StimWord} {ws : List StimWord} (h : s.inputs = w :: ws) :
    s.takeWord = { s with inputs := ws, seq := s.seq + 1 } := by
  simp only [State.takeWord, h, List.tail_cons]

theorem State.takeWord_of_nil (h : s.inputs = []) : s.takeWord = { s with seq := s.seq + 1 } := by
  simp only [State.takeWord, h, List.tail_nil]

/-- Settles O7: a legal record is not refused, and the word taken is the oldest one or the free draw. -/
theorem stepRunsTheDecodedOperation : Obligations.StepRunsTheDecodedOperation := by
  unfold Obligations.StepRunsTheDecodedOperation
  intro s h
  rw [step_of_legal h]
  constructor
  · intro w ws hw
    rw [State.nextWord_of_cons hw, State.takeWord_of_cons hw]
  · intro hnil
    rw [State.nextWord_of_nil hnil, State.takeWord_of_nil hnil]

/-- Every operation but RESET takes no step from a faulted state (40_timing_service.md R58). -/
theorem exec_eq_runOp {i : Instr} (hi : i ≠ .reset) : ∃ f, exec i = runOp f := by
  cases i with
  | reset => exact absurd rfl hi
  | step | getReport | getIdle | setIdle | reqUnhandled | idleTick | wdogExpire | serGap | serStart | serEdge
  | serComplete | pollAdvance | pollFinish | pollRestart | sampleLatch | arbitrate | buildMux | buildSer
  | transmit => exact ⟨_, rfl⟩

/-- Settles O11: RESET alone takes a step from a faulted state, and its next state holds no fault. -/
theorem faultedStateTakesNoStep : Obligations.FaultedStateTakesNoStep := by
  unfold Obligations.FaultedStateTakesNoStep
  intro s r hr
  refine ⟨fun i hi => ?_, opReset s, rfl, rfl⟩
  obtain ⟨f, hf⟩ := exec_eq_runOp hi
  rw [hf, runOp_of_fault hr]

/-! ## The outputs (R33, 30_encoding.md R53) -/

theorem tri_true (level : Bool) : tri true level = .driven level := rfl

theorem tri_false (level : Bool) : tri false level = .z := rfl

/-- Only an answer of kind DATA carries bytes. -/
theorem Resp.bytes_of_kind_ne (r : Resp) (h : r.kind ≠ 1) : r.bytes = [] := by
  cases r with
  | data => exact absurd rfl h
  | none | ack | unhandled => rfl

/-- Settles O48: each output is the state element that R33 names. -/
theorem outputsReadTheState : Obligations.OutputsReadTheState := by
  unfold Obligations.OutputsReadTheState
  intro s
  refine ⟨fun h => ?_, fun h => ?_, fun h => ?_, fun h => ?_, Option.isSome_iff_exists, fun h => ?_, fun h => ?_, ?_,
    rfl⟩
  · simp [State.outputs, h, tri_true]
  · simp [State.outputs, h, tri_false]
  · simp [State.outputs, h, tri_true]
  · simp [State.outputs, h, tri_false]
  · simp [State.outputs, h, Resp.kind]
  · simp [State.outputs, Resp.bytes_of_kind_ne _ h]
  · simp [State.outputs, State.respData]

/-! ## The register views (R31) -/

/-- A number stands whole in a field that it fits. -/
theorem toNat_field {n v : Nat} {f : BitVec n} (hf : f = BitVec.ofNat n v) (hv : v < 2 ^ n) : f.toNat = v := by
  rw [hf, BitVec.toNat_ofNat, Nat.mod_eq_of_lt hv]

theorem State.regIdleStat_idleCnt (s : State) : s.regIdleStat.extractLsb' 0 8 = BitVec.ofNat 8 s.idleCnt :=
  BitVec.extractLsb'_append_eq_right

theorem State.regPollCtrl_ptPeriod (s : State) : s.regPollCtrl.extractLsb' 1 16 = BitVec.ofNat 16 s.ptPeriod :=
  BitVec.extractLsb'_append_eq_left

theorem State.regMuxStat_phase (s : State) : s.regMuxStat.extractLsb' 0 4 = BitVec.ofNat 4 s.phase :=
  BitVec.extractLsb'_append_eq_right

theorem State.regWdStat_wdCnt (s : State) : s.regWdStat.extractLsb' 1 16 = BitVec.ofNat 16 s.wdCnt :=
  BitVec.extractLsb'_append_eq_left

theorem State.regSerStat_byteIdx (s : State) : s.regSerStat.extractLsb' 1 4 = BitVec.ofNat 4 s.byteIdx := by
  rw [State.regSerStat, BitVec.extractLsb'_append_eq_of_le (by decide)]
  exact BitVec.extractLsb'_append_eq_right

theorem State.regSerStat_edgeIdx (s : State) : s.regSerStat.extractLsb' 5 8 = BitVec.ofNat 8 s.edgeIdx := by
  rw [State.regSerStat, BitVec.extractLsb'_append_eq_of_le (by decide), BitVec.extractLsb'_append_eq_of_le (by decide)]
  exact BitVec.extractLsb'_append_eq_right

theorem State.regSerStat_gapCnt (s : State) : s.regSerStat.extractLsb' 13 8 = BitVec.ofNat 8 s.gapCnt := by
  rw [State.regSerStat, BitVec.extractLsb'_append_eq_of_le (by decide), BitVec.extractLsb'_append_eq_of_le (by decide),
    BitVec.extractLsb'_append_eq_of_le (by decide)]
  exact BitVec.extractLsb'_append_eq_right

theorem Mode.code_toNat (m : Mode) :
    m.code.toNat = match m with | .undecided => 0 | .mux => 1 | .serial => 2 | .three => 3 := by
  cases m <;> rfl

theorem SerPhase.code_getElem (p : SerPhase) : p.code[0] = decide (p = .active) := by
  cases p <;> rfl

/-- The one-bit fields of the registers. -/
theorem State.registers_flags (s : State) :
    s.regIdleStat.getLsbD 8 = s.idleElapsed ∧ s.regIdleStat.getLsbD 9 = s.sendPending ∧
    s.regPollCtrl.getLsbD 0 = s.ptEn ∧
    s.regMuxStat.getLsbD 4 = s.needSample ∧ s.regMuxStat.getLsbD 5 = s.sel ∧ s.regMuxStat.getLsbD 6 = s.selOe ∧
    s.regSerCtrl.getLsbD 0 = s.serEn ∧ s.regSerCtrl.getLsbD 1 = s.serOe ∧
    s.regSerStat.getLsbD 0 = decide (s.serPhase = .active) ∧
    s.regSerStat.getLsbD 21 = s.att ∧ s.regSerStat.getLsbD 22 = s.clk ∧ s.regSerStat.getLsbD 23 = s.cmd ∧
    s.regWdStat.getLsbD 0 = s.wdArmed ∧ s.regFlags.getLsbD 0 = s.sampleComplete := by
  simp only [State.regIdleStat, State.regPollCtrl, State.regMuxStat, State.regSerCtrl, State.regSerStat,
    State.regWdStat, State.regFlags, BitVec.getLsbD_append]
  simp [SerPhase.code_getElem]

/-- After RESET the registers whose fields are all fixed by R130 hold their reset values. -/
theorem opReset_registers (s : State) :
    (opReset s).regMode = 0 ∧ (opReset s).regIdleStat = 0 ∧ (opReset s).regSerCtrl = 0 ∧
    (opReset s).regSerStat = 0xE00000 ∧ (opReset s).regWdStat = 0 ∧ (opReset s).regFlags = 0 := by
  simp [opReset, State.resetWith, State.regMode, State.regIdleStat, State.regSerCtrl, State.regSerStat, State.regWdStat,
    State.regFlags, Mode.code, SerPhase.code]

/-- Settles O57: each register is the concatenation of its fields, and RESET writes each of them. -/
theorem registerViewsPackTheFields : Obligations.RegisterViewsPackTheFields := by
  unfold Obligations.RegisterViewsPackTheFields
  constructor
  · intro s h
    obtain ⟨helapsed, hpending, hpt, hneed, hsel, hselOe, hser, hserOe, hphase, hatt, hclk, hcmd, hwd, hflag⟩ :=
      s.registers_flags
    exact ⟨s.mode.code_toNat, rfl, toNat_field s.regIdleStat_idleCnt h.idleCnt, helapsed, hpending, hpt,
      toNat_field s.regPollCtrl_ptPeriod h.ptPeriod, toNat_field s.regMuxStat_phase h.phase, hneed, hsel, hselOe, hser,
      hserOe, hphase, toNat_field s.regSerStat_byteIdx h.byteIdx, toNat_field s.regSerStat_edgeIdx h.edgeIdx,
      toNat_field s.regSerStat_gapCnt h.gapCnt, hatt, hclk, hcmd, hwd, toNat_field s.regWdStat_wdCnt h.wdCnt, hflag⟩
  · intro s
    obtain ⟨-, -, hpt, hneed, hsel, hselOe, -⟩ := (opReset s).registers_flags
    obtain ⟨hmode, hidle, hser, hstat, hwd, hflag⟩ := opReset_registers s
    exact ⟨opReset s, rfl, hmode, rfl, hidle, hpt, (opReset s).regPollCtrl_ptPeriod, (opReset s).regMuxStat_phase,
      hneed, hsel, hselOe, hser, hstat, hwd, hflag⟩

/-! ## Owners (20_memory.md R46)

Each sub-step belongs to one owner. `Owner.hide` blanks all that the owner writes, so a sub-step of the owner is
invisible behind it, and every view of the state that looks past the owner is kept by its sub-steps. -/

/-- Who writes: the host requests, the Idle/Transmit Scheduler, the two engines, the Mode Arbitrator, the Report
Builder. -/
inductive Owner where
  | host
  | idle
  | serial
  | mux
  | arbiter
  | report
  deriving DecidableEq

/-- The owner of an event code (30_encoding.md R52). -/
def codeOwner (c : Byte) : Option Owner :=
  [(0x40, Owner.host), (0x41, .host), (0x42, .host), (0x4F, .host), (0x20, .idle), (0x33, .idle), (0x10, .serial),
    (0x11, .serial), (0x12, .serial), (0x13, .serial), (0x14, .serial), (0x01, .mux), (0x02, .mux), (0x03, .mux),
    (0x04, .mux), (0x30, .arbiter), (0x31, .report), (0x32, .report)].lookup c

/-- The state without the owner's codes in its trace. -/
def State.hideCodes (e : Owner) (s : State) : State :=
  { s with trace := s.trace.filter fun c => codeOwner c ≠ some e }

/-- The state with every element that the owner writes blanked. A sub-step that can fault writes `fault` too. -/
def Owner.blank (e : Owner) (s : State) : State :=
  match e with
  | .host => { s with resp := .none, idleRate := 0, idleCnt := 0, idleElapsed := false }
  | .idle => { s with tx := none, itCnt := 0, idleCnt := 0, idleElapsed := false, sendPending := false, fault := none }
  | .serial =>
    { s with
      acc := Vector.replicate 6 0, byteIdx := 0, edgeIdx := 0, att := true, clk := true, cmd := true
      serPhase := .gap, gapCnt := 0, wdArmed := false, wdCnt := 0, scCnt := 0, sampleComplete := false
      fault := none }
  | .mux =>
    { s with
      raw := Vector.replicate 2 (Vector.replicate 8 0), phase := 0, sel := false, needSample := false, stCnt := 0
      ptPeriod := 0, ptCnt := 0, sampleComplete := false, fault := none }
  | .arbiter =>
    { s with
      mode := .undecided, ptEn := false, selOe := false, needSample := false, sampleComplete := false
      serEn := false, scCnt := 0, serOe := false, att := true, clk := true, cmd := true, serPhase := .gap
      gapCnt := 0, byteIdx := 0, edgeIdx := 0, acc := Vector.replicate 6 0, wdArmed := false, wdCnt := 0
      fault := none }
  | .report => { s with rpt := .safeDefault, sampleComplete := false, sendPending := false }

/-- What is left of the state when the owner's elements and codes are hidden. -/
def Owner.hide (e : Owner) (s : State) : State := e.blank (s.hideCodes e)

theorem State.hideCodes_emit {e : Owner} {c : Byte} (hc : codeOwner c = some e) (s : State) :
    (s.emit c).hideCodes e = s.hideCodes e := by
  simp [State.hideCodes, State.emit, hc]

theorem Owner.hide_emit {e : Owner} {c : Byte} (hc : codeOwner c = some e) (s : State) :
    e.hide (s.emit c) = e.hide s :=
  congrArg e.blank (State.hideCodes_emit hc s)

theorem Owner.blank_trace (e : Owner) (s : State) : (e.blank s).trace = s.trace := by
  cases e <;> rfl

/-- An owner hides its own codes only. -/
theorem Owner.mem_trace_hide {e : Owner} {c : Byte} (hc : codeOwner c ≠ some e) (s : State) :
    (c ∈ (e.hide s).trace) = (c ∈ s.trace) := by
  rw [Owner.hide, Owner.blank_trace]
  simp [State.hideCodes, hc]

/-! ### The sub-steps and their owners -/

/-- The sub-steps S1 to S9 (40_timing_service.md R58). -/
inductive SubStep where
  | request
  | idleTimer
  | watchdog
  | serialTimer
  | pollTimer
  | settle
  | arbitrate
  | build
  | transmit
  deriving DecidableEq

def SubStep.run : SubStep → State → State
  | .request => subRequest
  | .idleTimer => subIdleTimer
  | .watchdog => subWatchdog
  | .serialTimer => subSerialTimer
  | .pollTimer => subPollTimer
  | .settle => subSettle
  | .arbitrate => subArbitrate
  | .build => subBuild
  | .transmit => subTransmit

def SubStep.owner : SubStep → Owner
  | .request => .host
  | .idleTimer | .transmit => .idle
  | .watchdog | .serialTimer => .serial
  | .pollTimer | .settle => .mux
  | .arbitrate => .arbiter
  | .build => .report

theorem subRequest_hide (s : State) : Owner.host.hide (subRequest s) = Owner.host.hide s := by
  unfold subRequest
  split
  · cases s.pins.request with
    | getReport => exact Owner.hide_emit rfl _
    | getIdle => exact Owner.hide_emit rfl _
    | setIdle rate => exact Owner.hide_emit rfl _
    | unhandled rqt rq => exact Owner.hide_emit rfl _
  · rfl

theorem opIdleTick_hide (s : State) : Owner.idle.hide (opIdleTick s) = Owner.idle.hide s := by
  have he := Owner.hide_emit (e := .idle) (c := 0x20) rfl s
  have hcount : ∀ u v, Owner.idle.hide (State.putIdleCnt u v) = Owner.idle.hide u := fun u v => by
    unfold State.putIdleCnt; split <;> rfl
  unfold opIdleTick
  split
  · exact (State.andThen_keeps (f := Owner.idle.hide) (hcount _ _) fun t ht => by split <;> exact ht).trans he
  · exact he

theorem subIdleTimer_hide (s : State) : Owner.idle.hide (subIdleTimer s) = Owner.idle.hide s :=
  periodicTimer_keeps (fun _ _ => rfl) (fun s v => by unfold State.putItCnt; split <;> rfl) opIdleTick_hide _ _ _ s

theorem opWdogExpire_hide (s : State) : Owner.serial.hide (opWdogExpire s) = Owner.serial.hide s := by
  rw [opWdogExpire, Owner.hide_emit (c := 0x14) rfl]
  simp [Owner.hide, Owner.blank, State.hideCodes]

theorem subWatchdog_hide (s : State) : Owner.serial.hide (subWatchdog s) = Owner.serial.hide s :=
  oneShot_keeps (fun _ _ => rfl) (fun s v => by unfold State.putWdCnt; split <;> rfl) opWdogExpire_hide _ _ _ s

theorem opSerStart_hide (s : State) : Owner.serial.hide (opSerStart s) = Owner.serial.hide s := by
  rw [opSerStart, Owner.hide_emit (c := 0x11) rfl]
  simp [Owner.hide, Owner.blank, State.hideCodes]

theorem opSerComplete_hide (s : State) : Owner.serial.hide (opSerComplete s) = Owner.serial.hide s := by
  rw [opSerComplete, Owner.hide_emit (c := 0x13) rfl]
  simp [Owner.hide, Owner.blank, State.hideCodes]

theorem edgeAdvance_hide (b e : Nat) (s : State) : Owner.serial.hide (edgeAdvance b e s) = Owner.serial.hide s := by
  have hedge : ∀ u v, Owner.serial.hide (State.putEdgeIdx u v) = Owner.serial.hide u := fun u v => by
    unfold State.putEdgeIdx; split <;> rfl
  unfold edgeAdvance
  split
  · split
    · exact opSerComplete_hide s
    · exact State.andThen_keeps (f := Owner.serial.hide) (by unfold State.putByteIdx; split <;> rfl)
        fun t ht => (hedge t 0).trans ht
  · exact hedge s _

theorem opSerTick_hide (s : State) : Owner.serial.hide (opSerTick s) = Owner.serial.hide s := by
  unfold opSerTick
  cases s.serPhase with
  | gap =>
    simp only []
    split
    · exact opSerGap_keeps (f := Owner.serial.hide) (fun _ _ => rfl) (fun _ _ => rfl)
        (fun _ => Owner.hide_emit (c := 0x10) rfl _) s
    · exact opSerStart_hide s
  | active =>
    simp only [opSerEdge]
    split
    · rw [edgeAdvance_hide, edge_actions]
      exact Owner.hide_emit (e := .serial) (c := 0x12) rfl s
    · rfl

theorem subSerialTimer_hide (s : State) : Owner.serial.hide (subSerialTimer s) = Owner.serial.hide s :=
  periodicTimer_keeps (fun _ _ => rfl) (fun s v => by unfold State.putScCnt; split <;> rfl) opSerTick_hide _ _ _ s

theorem opPollTick_hide (s : State) : Owner.mux.hide (opPollTick s) = Owner.mux.hide s := by
  unfold opPollTick
  split
  · exact State.andThen_keeps (f := Owner.mux.hide) (by unfold State.putPhase; split <;> rfl)
      fun t ht => (Owner.hide_emit rfl _).trans ht
  · split
    · exact Owner.hide_emit rfl _
    · split
      · exact Owner.hide_emit rfl _
      · rfl

theorem subPollTimer_hide (s : State) : Owner.mux.hide (subPollTimer s) = Owner.mux.hide s :=
  periodicTimer_keeps (fun _ _ => rfl) (fun s v => by unfold State.putPtCnt; split <;> rfl) opPollTick_hide _ _ _ s

theorem opSampleLatch_hide (s : State) : Owner.mux.hide (opSampleLatch s) = Owner.mux.hide s := by
  unfold opSampleLatch
  split
  · exact Owner.hide_emit rfl _
  · rfl

theorem subSettle_hide (s : State) : Owner.mux.hide (subSettle s) = Owner.mux.hide s :=
  oneShot_keeps (fun _ _ => rfl) (fun s v => by unfold State.putStCnt; split <;> rfl) opSampleLatch_hide _ _ _ s

theorem opArbitrate_hide (s : State) : Owner.arbiter.hide (opArbitrate s) = Owner.arbiter.hide s := by
  unfold opArbitrate
  split
  · rw [selectSerial_eq, ← Owner.hide_emit (c := 0x30) rfl s]
    rfl
  · rw [selectMux, ← Owner.hide_emit (c := 0x30) rfl s]
    rfl

theorem subArbitrate_hide (s : State) : Owner.arbiter.hide (subArbitrate s) = Owner.arbiter.hide s := by
  unfold subArbitrate
  cases s.mode with
  | undecided =>
    simp only []
    split
    · exact opArbitrate_hide s
    · rfl
  | mux | serial | three => rfl

theorem State.build_hide (s : State) (r : Report) : Owner.report.hide (s.build r) = Owner.report.hide s := by
  rw [State.build_eq]; rfl

theorem subBuild_hide (s : State) : Owner.report.hide (subBuild s) = Owner.report.hide s := by
  unfold subBuild
  split
  · cases s.mode with
    | mux => exact (Owner.hide_emit rfl _).trans (s.build_hide _)
    | serial => exact (Owner.hide_emit rfl _).trans (s.build_hide _)
    | undecided | three => rfl
  · rfl

theorem subTransmit_hide (s : State) : Owner.idle.hide (subTransmit s) = Owner.idle.hide s := by
  unfold subTransmit
  split
  · rw [opTransmit, Owner.hide_emit (c := 0x33) rfl]
    simp [Owner.hide, Owner.blank, State.hideCodes]
  · rfl

/-- What a sub-step writes is its owner's. -/
theorem SubStep.hide_run (x : SubStep) (s : State) : x.owner.hide (x.run s) = x.owner.hide s := by
  cases x with
  | request => exact subRequest_hide s
  | idleTimer => exact subIdleTimer_hide s
  | watchdog => exact subWatchdog_hide s
  | serialTimer => exact subSerialTimer_hide s
  | pollTimer => exact subPollTimer_hide s
  | settle => exact subSettle_hide s
  | arbitrate => exact subArbitrate_hide s
  | build => exact subBuild_hide s
  | transmit => exact subTransmit_hide s

/-- A view that looks past the owner of a sub-step is kept by it. -/
theorem SubStep.run_keeps {α : Type} {f : State → α} (x : SubStep) (hf : ∀ s, f (x.owner.hide s) = f s) (s : State) :
    f (x.run s) = f s := by
  rw [← hf, x.hide_run, hf]

/-- Sub-steps in their order; a fault ends them (R58, R119). -/
def runSubSteps (xs : List SubStep) (s : State) : State := xs.foldl (fun u x => u.andThen x.run) s

theorem runSubSteps_keeps {α : Type} {f : State → α} {xs : List SubStep}
    (hf : ∀ x ∈ xs, ∀ s, f (x.owner.hide s) = f s) (s : State) : f (runSubSteps xs s) = f s := by
  induction xs generalizing s with
  | nil => rfl
  | cons x xs ih =>
    have hx := List.forall_mem_cons.mp hf
    exact (ih hx.2 _).trans (State.andThen_keeps rfl fun t ht => (x.run_keeps hx.1 t).trans ht)

/-- STEP is its nine sub-steps. -/
theorem opStep_eq_runSubSteps (stim : Stim) (h : s.fault = none) : opStep stim s =
    runSubSteps [.request, .idleTimer, .watchdog, .serialTimer, .pollTimer, .settle, .arbitrate, .build, .transmit]
      (s.beginStep stim) := by
  have hone : (s.beginStep stim).andThen subRequest = subRequest (s.beginStep stim) :=
    State.andThen_of_noFault (by exact h) _
  exact congrArg afterRequest hone.symm

/-- Only its owner's sub-steps emit a code. -/
theorem runSubSteps_mem_trace {c : Byte} {xs : List SubStep} (hc : ∀ x ∈ xs, codeOwner c ≠ some x.owner) (s : State) :
    (c ∈ (runSubSteps xs s).trace) = (c ∈ s.trace) :=
  runSubSteps_keeps (f := fun u => c ∈ u.trace) (fun x hx => Owner.mem_trace_hide (hc x hx)) s

/-- No owner writes the inputs of the step. -/
theorem runSubSteps_pins (xs : List SubStep) (s : State) : (runSubSteps xs s).pins = s.pins :=
  runSubSteps_keeps (fun x _ t => by cases x <;> rfl) s

/-- No owner writes the words to come. -/
theorem runSubSteps_inputs (xs : List SubStep) (s : State) : (runSubSteps xs s).inputs = s.inputs :=
  runSubSteps_keeps (fun x _ t => by cases x <;> rfl) s

/-! ## The answer (R33) -/

/-- Only a request writes the answer. -/
theorem Owner.hide_resp {e : Owner} (h : e ≠ .host) (s : State) : (e.hide s).resp = s.resp := by
  cases e with
  | host => exact absurd rfl h
  | idle | serial | mux | arbiter | report => rfl

theorem afterRequest_resp (s : State) : (afterRequest s).resp = s.resp :=
  runSubSteps_keeps (f := State.resp)
    (xs := [.idleTimer, .watchdog, .serialTimer, .pollTimer, .settle, .arbitrate, .build, .transmit])
    (by simp [SubStep.owner, Owner.hide_resp]) s

/-- The answer to a request, from the state that it finds (45_idle_transmit_host.md R108 to R111). -/
def requestAnswer (s : State) : Request → Resp
  | .getReport => .data s.rpt.toList
  | .getIdle => .data [s.idleRate]
  | .setIdle _ => .ack
  | .unhandled _ _ => .unhandled

theorem opRequest_resp (r : Request) (s : State) : (opRequest r s).resp = requestAnswer s r := by
  cases r <;> rfl

/-- The answers by the request map (30_encoding.md R49). -/
theorem request_answer (s : State) (st : Stim) : requestAnswer s st.request =
    if st.rqt = 0xA1 ∧ st.rq = 0x01 then .data s.rpt.toList
    else if st.rqt = 0xA1 ∧ st.rq = 0x02 then .data [s.idleRate]
    else if st.rqt = 0x21 ∧ st.rq = 0x0A then .ack
    else .unhandled := by
  unfold Stim.request decodeRequest
  split_ifs <;> rfl

/-- Settles O37: S1 answers from the state before the step, and S2 to S9 leave the answer alone. -/
theorem answersComeFromThePreviousStep : Obligations.AnswersComeFromThePreviousStep := by
  unfold Obligations.AnswersComeFromThePreviousStep
  intro s t st e
  rw [exec_step] at e
  obtain ⟨-, rfl⟩ := runOp_eq_next.mp e
  rw [opStep, afterRequest_resp, subRequest, State.beginStep_pins]
  cases st.reqv with
  | false => rfl
  | true => exact (opRequest_resp _ _).trans (request_answer s st)

/-! ## The mode (R26) -/

/-- The mode, and whether ARBITRATE ran (code 0x30). -/
def State.decision (s : State) : Mode × Prop := (s.mode, 0x30 ∈ s.trace)

theorem Owner.hide_decision {e : Owner} (h : e ≠ .arbiter) (s : State) : (e.hide s).decision = s.decision := by
  cases e with
  | arbiter => exact absurd rfl h
  | host | idle | serial | mux | report => exact Prod.ext rfl (Owner.mem_trace_hide (by decide) s)

theorem runSubSteps_decision {xs : List SubStep} (h : ∀ x ∈ xs, x.owner ≠ .arbiter) (s : State) :
    (runSubSteps xs s).decision = s.decision :=
  runSubSteps_keeps (fun x hx => Owner.hide_decision (h x hx)) s

theorem opArbitrate_decides (s : State) : (opArbitrate s).mode ≠ .undecided ∧ 0x30 ∈ (opArbitrate s).trace := by
  unfold opArbitrate
  split
  · rw [selectSerial_eq]
    simp
  · simp [selectMux]

/-- S7 leaves the mode alone, or runs ARBITRATE in the undecided mode and decides (43_mode_arbiter.md R90, R96). -/
theorem subArbitrate_decision_cases (s : State) : (subArbitrate s).decision = s.decision ∨
    (s.mode = .undecided ∧ (subArbitrate s).mode ≠ .undecided ∧ 0x30 ∈ (subArbitrate s).trace) := by
  unfold subArbitrate
  cases hm : s.mode with
  | undecided =>
    simp only []
    split
    · exact .inr ⟨trivial, opArbitrate_decides s⟩
    · exact .inl rfl
  | mux | serial | three => exact .inl rfl

/-- S1 to S6. -/
def SubStep.beforeArbitrate : List SubStep := [.request, .idleTimer, .watchdog, .serialTimer, .pollTimer, .settle]

theorem opStep_eq_around_arbitrate (stim : Stim) (hf : s.fault = none) : opStep stim s =
    runSubSteps [.build, .transmit]
      ((runSubSteps SubStep.beforeArbitrate (s.beginStep stim)).andThen subArbitrate) :=
  opStep_eq_runSubSteps stim hf

/-- A step leaves the mode alone without ARBITRATE, or runs it in the undecided mode and decides. -/
theorem opStep_decision_cases (stim : Stim) (hf : s.fault = none) :
    ((opStep stim s).mode = s.mode ∧ 0x30 ∉ (opStep stim s).trace) ∨
    (s.mode = .undecided ∧ (opStep stim s).mode ≠ .undecided ∧ 0x30 ∈ (opStep stim s).trace) := by
  have hu := runSubSteps_decision (xs := SubStep.beforeArbitrate) (by decide) (s.beginStep stim)
  rw [opStep_eq_around_arbitrate stim hf]
  generalize runSubSteps SubStep.beforeArbitrate (s.beginStep stim) = u at hu ⊢
  have ht := runSubSteps_decision (xs := [.build, .transmit]) (by decide) (u.andThen subArbitrate)
  have hkept : (u.andThen subArbitrate).decision = u.decision ∨ (u.mode = .undecided ∧
      (u.andThen subArbitrate).mode ≠ .undecided ∧ 0x30 ∈ (u.andThen subArbitrate).trace) := by
    rcases u.andThen_cases subArbitrate with ⟨-, e⟩ | ⟨r, -, e⟩ <;> rw [e]
    · exact subArbitrate_decision_cases u
    · exact .inl rfl
  simp only [State.decision, Prod.mk.injEq, State.beginStep_mode, State.beginStep_trace, List.not_mem_nil]
    at hu ht hkept
  rw [ht.1, ht.2, ← hu.1]
  exact hkept.imp_left fun ⟨hm, hcode⟩ => ⟨hm, fun hin => hu.2.mp (hcode.mp hin)⟩

theorem opStep_inputs (stim : Stim) (hf : s.fault = none) : (opStep stim s).inputs = s.inputs := by
  rw [opStep_eq_runSubSteps stim hf]
  exact runSubSteps_inputs _ (s.beginStep stim)

/-- A step on a word without RST is STEP, from a state without a fault. -/
theorem step_eq_next_of_noReset (hr : s.nextWord.getLsbD 15 = false) (e : step s = .next t) :
    s.fault = none ∧ t = opStep (decodeStim s.nextWord) s.takeWord := by
  by_cases h : s.params.Legal
  · rw [step_of_legal h, exec_decodeTop, rstBit, hr] at e
    exact runOp_eq_next.mp e
  · rw [(step_eq_refused_iff s).mpr h] at e
    cases e

/-- A run that goes on has a first step and goes on from there. -/
theorem run_succ_eq_next {n : Nat} (e : core.run (n + 1) s = .next t) :
    ∃ u, step s = .next u ∧ core.run n u = .next t := by
  cases hs : step s with
  | next u => exact ⟨u, rfl, run_succ_of_next hs n ▸ e⟩
  | fault r =>
    have hc : core.step s = .fault r := hs
    simp [Host.Core.run, hc] at e
  | refused r =>
    have hc : core.step s = .refused r := hs
    simp [Host.Core.run, hc] at e

/-- One step on a given word without RST leaves a decided mode, and the words after it. -/
theorem step_mode_of_decided {w : StimWord} {ws : List StimWord} (hm : s.mode ≠ .undecided) (hi : s.inputs = w :: ws)
    (hw : w.getLsbD 15 = false) (e : step s = .next t) : t.mode = s.mode ∧ t.inputs = ws := by
  obtain ⟨hf, rfl⟩ := step_eq_next_of_noReset (State.nextWord_of_cons hi ▸ hw) e
  refine ⟨?_, ?_⟩
  · rcases opStep_decision_cases (s := s.takeWord) (decodeStim s.nextWord) hf with ⟨h, -⟩ | ⟨h, -⟩
    · exact h
    · exact absurd h hm
  · rw [opStep_inputs (s := s.takeWord) _ hf, State.takeWord_inputs, hi, List.tail_cons]

theorem run_mode_of_decided (n : Nat) (hm : s.mode ≠ .undecided) (hn : n ≤ s.inputs.length)
    (hw : ∀ w ∈ s.inputs, w.getLsbD 15 = false) (e : core.run n s = .next t) : t.mode = s.mode := by
  induction n generalizing s with
  | zero => cases e; rfl
  | succ n ih =>
    obtain ⟨w, ws, hi⟩ := List.exists_cons_of_length_pos (Nat.zero_lt_of_lt hn)
    rw [hi] at hn hw
    obtain ⟨u, hstep, hrun⟩ := run_succ_eq_next e
    obtain ⟨humode, huinputs⟩ := step_mode_of_decided hm hi (hw w List.mem_cons_self) hstep
    rw [← humode]
    refine ih (humode ▸ hm) ?_ ?_ hrun <;> rw [huinputs]
    · exact Nat.le_of_succ_le_succ hn
    · exact fun v hv => hw v (List.mem_cons_of_mem w hv)

/-- Settles O27: S7 alone writes the mode, when it is undecided, and ARBITRATE leaves it decided. -/
theorem modeIsDecidedOnce : Obligations.ModeIsDecidedOnce := by
  unfold Obligations.ModeIsDecidedOnce
  refine ⟨fun n s t => run_mode_of_decided n, ?_⟩
  intro s t st _ e
  rw [exec_step] at e
  obtain ⟨hf, rfl⟩ := runOp_eq_next.mp e
  rcases opStep_decision_cases st hf with ⟨hm, hn⟩ | ⟨hs, ht, hin⟩
  · exact iff_of_false hn fun h => h.2 (hm.trans h.1)
  · exact iff_of_true hin ⟨hs, ht⟩

/-! ## The sample set (R25) -/

theorem State.andThen_eq_of_noFault {f : State → State} (h : (s.andThen f).fault = none) :
    s.fault = none ∧ s.andThen f = f s := by
  rcases s.andThen_cases f with h' | ⟨r, hr, e⟩
  · exact h'
  · rw [e, hr] at h
    cases h

/-- A sample set that S7 leaves marked, without a fault, is one that S8 builds from. -/
theorem subArbitrate_complete (hf : (subArbitrate s).fault = none) (hc : (subArbitrate s).sampleComplete = true) :
    (subArbitrate s).mode = .mux ∨ (subArbitrate s).mode = .serial := by
  unfold subArbitrate at hf hc ⊢
  cases hm : s.mode with
  | undecided =>
    simp only [hm] at hc ⊢
    split at hc
    · rename_i hs
      rw [if_pos hs]
      unfold opArbitrate
      split
      · exact .inr rfl
      · exact .inl rfl
    · rename_i hs
      exact absurd hc hs
  | mux => exact .inl hm
  | serial => exact .inr hm
  | three => simp [hm] at hf

theorem subBuild_consumes (h : s.sampleComplete = true → s.mode = .mux ∨ s.mode = .serial) :
    (subBuild s).sampleComplete = false := by
  unfold subBuild
  split
  · rename_i hc
    rcases h hc with hm | hm <;> rw [hm] <;> rfl
  · rename_i hc
    exact eq_false_of_ne_true hc

theorem subTransmit_sampleComplete (s : State) : (subTransmit s).sampleComplete = s.sampleComplete :=
  SubStep.transmit.run_keeps (f := State.sampleComplete) (fun _ => rfl) s

/-- Settles O31: without a fault S7 leaves a marked set to a decided mode only, and S8 consumes it there. -/
theorem sampleSetConsumedInItsStep : Obligations.SampleSetConsumedInItsStep := by
  unfold Obligations.SampleSetConsumedInItsStep
  intro s t st e hf
  rw [exec_step] at e
  obtain ⟨-, rfl⟩ := runOp_eq_next.mp e
  rw [opStep, afterRequest] at hf ⊢
  obtain ⟨hf8, e9⟩ := State.andThen_eq_of_noFault hf
  obtain ⟨hf7, e8⟩ := State.andThen_eq_of_noFault hf8
  obtain ⟨-, e7⟩ := State.andThen_eq_of_noFault hf7
  rw [e9, subTransmit_sampleComplete, e8]
  rw [e7] at hf7 ⊢
  exact subBuild_consumes (subArbitrate_complete hf7)

/-! ## The serial engine outside serial mode (R34) -/

/-- What the serial engine holds while it does not run, and whether it emitted the code. -/
def State.serialHeld (c : Byte) (s : State) : Vector Byte 6 × Nat × Nat × Nat × Prop :=
  (s.acc, s.gapCnt, s.scCnt, s.wdCnt, c ∈ s.trace)

theorem State.emit_serialHeld {c d : Byte} (hne : c ≠ d) (s : State) : (s.emit d).serialHeld c = s.serialHeld c := by
  simp only [State.serialHeld, State.emit_trace, List.mem_append, List.mem_singleton, or_iff_left hne]
  rfl

theorem Owner.hide_serialHeld {e : Owner} {c : Byte} (hc : codeOwner c = some .serial) (hs : e ≠ .serial)
    (ha : e ≠ .arbiter) (s : State) : (e.hide s).serialHeld c = s.serialHeld c := by
  have hcode : (c ∈ (e.hide s).trace) = (c ∈ s.trace) :=
    Owner.mem_trace_hide (by rw [hc]; exact fun h => hs (Option.some.inj h).symm) s
  simp only [State.serialHeld, hcode]
  cases e with
  | serial => exact absurd rfl hs
  | arbiter => exact absurd rfl ha
  | host | idle | mux | report => rfl

/-- Outside serial mode no transaction is in progress. -/
theorem State.Mid.serPhase_gap {early : Bool} {k : Nat} (h : s.Mid early k) (hm : s.mode ≠ .serial) :
    s.serPhase = .gap := by
  cases hp : s.serPhase with
  | gap => rfl
  | active => exact absurd (h.activeSerial hp).1 hm

/-- Outside serial mode S3 and S4 do nothing (R34 items 2 and 4). -/
theorem serialSubSteps_of_notSerial {early : Bool} {k : Nat} (h : s.Mid early k) (hm : s.mode ≠ .serial) :
    subSerialTimer (subWatchdog s) = s := by
  have hen : s.serEn = false := eq_false_of_ne_true fun he => hm (h.serEnIff.mp he)
  rw [subWatchdog_of_gap h (h.serPhase_gap hm), subSerialTimer, hen]
  rfl

/-- S7 leaves the serial engine alone unless it selects serial mode (43_mode_arbiter.md R94). -/
theorem subArbitrate_serialHeld {c : Byte} (hc : codeOwner c = some .serial) (hm : (subArbitrate s).mode ≠ .serial) :
    (subArbitrate s).serialHeld c = s.serialHeld c := by
  have hne : c ≠ 0x30 := by rintro rfl; cases hc
  unfold subArbitrate at hm ⊢
  cases hmode : s.mode with
  | undecided =>
    simp only [hmode, opArbitrate] at hm ⊢
    split
    · rename_i hcomplete
      rw [if_pos hcomplete] at hm
      split at hm
      · exact absurd rfl hm
      · rename_i hmux
        rw [if_neg hmux]
        exact s.emit_serialHeld hne
    · rfl
  | mux | serial | three => rfl

/-- A step that ends outside serial mode keeps what the serial engine holds and emits none of its codes. -/
theorem opStep_serialHeld {c : Byte} (hc : codeOwner c = some .serial) (h : s.Inv) {stim : Stim}
    (hm : (opStep stim s).mode ≠ .serial) (hs : s.mode ≠ .serial) :
    (opStep stim s).serialHeld c = (s.beginStep stim).serialHeld c := by
  have hone := subRequest_mid (h.mid.beginStep stim)
  have htwo := subIdleTimer_mid hone
  have hmode := fun (x : SubStep) (hx : x.owner ≠ .arbiter) u =>
    congrArg Prod.fst (x.run_keeps (f := State.decision) (Owner.hide_decision hx) u)
  have hheld := fun (x : SubStep) (hx : x.owner ≠ .serial) (hx' : x.owner ≠ .arbiter) u =>
    x.run_keeps (Owner.hide_serialHeld hc hx hx') u
  have hs2 : (subIdleTimer (subRequest (s.beginStep stim))).mode = s.mode :=
    (hmode .idleTimer (by decide) _).trans (hmode .request (by decide) _)
  rw [opStep, (afterRequest_of_mid hone).1, serialSubSteps_of_notSerial htwo (hs2 ▸ hs)] at hm ⊢
  generalize hu : subIdleTimer (subRequest (s.beginStep stim)) = u at hm ⊢
  have hm7 : (subArbitrate (subSettle (subPollTimer u))).mode ≠ .serial := fun hser =>
    hm (((hmode .transmit (by decide) _).trans (hmode .build (by decide) _)).trans hser)
  calc (subTransmit (subBuild (subArbitrate (subSettle (subPollTimer u))))).serialHeld c
    _ = (subArbitrate (subSettle (subPollTimer u))).serialHeld c :=
        (hheld .transmit (by decide) (by decide) _).trans (hheld .build (by decide) (by decide) _)
    _ = (subSettle (subPollTimer u)).serialHeld c := subArbitrate_serialHeld hc hm7
    _ = u.serialHeld c :=
        (hheld .settle (by decide) (by decide) _).trans (hheld .pollTimer (by decide) (by decide) _)
    _ = (s.beginStep stim).serialHeld c :=
        hu ▸ (hheld .idleTimer (by decide) (by decide) _).trans (hheld .request (by decide) (by decide) _)

/-- Outside serial mode the engine stands in the gap with its outputs off (R34 items 2 and 4). -/
theorem State.Inv.serial_off (h : s.Inv) (hm : s.mode ≠ .serial) :
    s.serEn = false ∧ s.serOe = false ∧ s.serPhase = .gap ∧ s.byteIdx = 0 ∧ s.edgeIdx = 0 ∧ s.wdArmed = false := by
  have hgap := h.mid.serPhase_gap hm
  obtain ⟨hb, he, hw, -⟩ := h.gapIdle hgap
  exact ⟨eq_false_of_ne_true fun hen => hm (h.serEnIff.mp hen), eq_false_of_ne_true fun hoe => hm (h.serOeIff.mp hoe),
    hgap, hb, he, hw⟩

/-- Settles O46: by the invariant the engine is off on both sides of the step, so S3 and S4 do nothing in it. -/
theorem serialEngineInertOutsideSerialMode : Obligations.SerialEngineInertOutsideSerialMode := by
  unfold Obligations.SerialEngineInertOutsideSerialMode
  intro s t st h e hm
  rw [exec_step] at e
  obtain ⟨hf, rfl⟩ := runOp_eq_next.mp e
  have hs : s.mode ≠ .serial := fun hser => by
    rcases opStep_decision_cases st hf with ⟨hkept, -⟩ | ⟨hund, -⟩
    · exact hm (hkept.trans hser)
    · rw [hser] at hund
      cases hund
  have hcode : ∀ c, codeOwner c = some .serial → c ∉ (opStep st s).trace := fun c hc hin =>
    List.not_mem_nil ((congrArg (·.2.2.2.2) (opStep_serialHeld hc h hm hs)).mp hin)
  have hheld := opStep_serialHeld (c := 0x10) rfl h hm hs
  simp only [State.serialHeld, Prod.mk.injEq] at hheld
  obtain ⟨hacc, hgapCnt, hsc, hwd, -⟩ := hheld
  obtain ⟨-, -, -, hbs, hes, -⟩ := h.serial_off hs
  obtain ⟨hen, hoe, hgap, hb, hed, harm⟩ := (opStep_inv h.mid st).serial_off hm
  have hz : ∀ level, tri (opStep st s).serOe level = .z := fun level => by rw [hoe]; rfl
  exact ⟨hen, hz _, hz _, hz _, hacc, hb.trans hbs.symm, hed.trans hes.symm, hgap, hgapCnt, hsc, harm, hwd,
    hcode 0x10 rfl, hcode 0x11 rfl, hcode 0x12 rfl, hcode 0x13 rfl, hcode 0x14 rfl⟩

/-! ## The inputs and their readers (R36) -/

/-- The state with another record of the step's inputs. -/
def State.withPins (s : State) (p : Stim) : State := { s with pins := p }

section WithPins
variable {p : Stim}

/-- A choice that does not read the inputs commutes with them. -/
theorem ite_withPins (c : Prop) [Decidable c] (u v : State) :
    (if c then u.withPins p else v.withPins p) = (if c then u else v).withPins p :=
  (apply_ite (State.withPins · p) c u v).symm

theorem putPhase_withPins (s : State) (v : Nat) : (s.withPins p).putPhase v = (s.putPhase v).withPins p := by
  rw [State.putPhase, State.putPhase, ← ite_withPins]; rfl
theorem putPtCnt_withPins (s : State) (v : Nat) : (s.withPins p).putPtCnt v = (s.putPtCnt v).withPins p := by
  rw [State.putPtCnt, State.putPtCnt, ← ite_withPins]; rfl
theorem putStCnt_withPins (s : State) (v : Nat) : (s.withPins p).putStCnt v = (s.putStCnt v).withPins p := by
  rw [State.putStCnt, State.putStCnt, ← ite_withPins]; rfl
theorem putGapCnt_withPins (s : State) (v : Nat) : (s.withPins p).putGapCnt v = (s.putGapCnt v).withPins p := by
  rw [State.putGapCnt, State.putGapCnt, ← ite_withPins]; rfl
theorem putByteIdx_withPins (s : State) (v : Nat) : (s.withPins p).putByteIdx v = (s.putByteIdx v).withPins p := by
  rw [State.putByteIdx, State.putByteIdx, ← ite_withPins]; rfl
theorem putEdgeIdx_withPins (s : State) (v : Nat) : (s.withPins p).putEdgeIdx v = (s.putEdgeIdx v).withPins p := by
  rw [State.putEdgeIdx, State.putEdgeIdx, ← ite_withPins]; rfl
theorem putScCnt_withPins (s : State) (v : Nat) : (s.withPins p).putScCnt v = (s.putScCnt v).withPins p := by
  rw [State.putScCnt, State.putScCnt, ← ite_withPins]; rfl
theorem putWdCnt_withPins (s : State) (v : Nat) : (s.withPins p).putWdCnt v = (s.putWdCnt v).withPins p := by
  rw [State.putWdCnt, State.putWdCnt, ← ite_withPins]; rfl
theorem putIdleCnt_withPins (s : State) (v : Nat) : (s.withPins p).putIdleCnt v = (s.putIdleCnt v).withPins p := by
  rw [State.putIdleCnt, State.putIdleCnt, ← ite_withPins]; rfl
theorem putItCnt_withPins (s : State) (v : Nat) : (s.withPins p).putItCnt v = (s.putItCnt v).withPins p := by
  rw [State.putItCnt, State.putItCnt, ← ite_withPins]; rfl

theorem State.andThen_withPins {f : State → State} (h : s.fault = none → f (s.withPins p) = (f s).withPins p) :
    (s.withPins p).andThen f = (s.andThen f).withPins p := by
  cases hf : s.fault with
  | none => rw [State.andThen_of_noFault hf, ← h hf, State.andThen_of_noFault (by exact hf)]
  | some r => rw [State.andThen_of_fault hf, State.andThen_of_fault (by exact hf)]

variable {put : State → Nat → State} {handler : State → State}

theorem State.countDown_withPins (hput : ∀ s v, put (State.withPins s p) v = (put s v).withPins p) (s : State)
    (cnt : Nat) : (s.withPins p).countDown put cnt = (s.countDown put cnt).withPins p := by
  cases cnt with
  | zero => rfl
  | succ n => exact hput s n

/-- A periodic timer commutes with the inputs if its handler does where it runs. -/
theorem periodicTimer_withPins {en : Bool} {cnt : Nat} {period : State → Nat}
    (hput : ∀ s v, put (State.withPins s p) v = (put s v).withPins p)
    (hh : en = true → cnt = 1 → handler (s.withPins p) = (handler s).withPins p)
    (hper : ∀ s, period (State.withPins s p) = period s) :
    periodicTimer en cnt put handler period (s.withPins p) =
      (periodicTimer en cnt put handler period s).withPins p := by
  unfold periodicTimer
  split
  · rename_i hen
    split
    · rename_i hcnt
      rw [hh hen hcnt]
      exact State.andThen_withPins fun _ => by rw [hper]; exact hput _ _
    · exact State.countDown_withPins hput s cnt
  · rfl

theorem oneShot_withPins {armed : Bool} {cnt last : Nat}
    (hput : ∀ s v, put (State.withPins s p) v = (put s v).withPins p)
    (hh : armed = true → cnt = last → handler (s.withPins p) = (handler s).withPins p) :
    oneShot armed cnt last put handler (s.withPins p) = (oneShot armed cnt last put handler s).withPins p := by
  unfold oneShot
  split
  · rename_i ha
    split
    · rename_i hcnt
      exact hh ha hcnt
    · exact State.countDown_withPins hput s cnt
  · rfl

/-! ### The sub-steps that read no input -/

theorem countIdle_withPins (s : State) : (s.withPins p).countIdle = s.countIdle.withPins p := by
  rw [State.countIdle, putIdleCnt_withPins]
  exact State.andThen_withPins fun _ => by rw [← ite_withPins]; rfl

theorem opIdleTick_withPins (s : State) : opIdleTick (s.withPins p) = (opIdleTick s).withPins p := by
  rw [opIdleTick, opIdleTick, ← ite_withPins, ← countIdle_withPins]
  rfl

theorem subIdleTimer_withPins (s : State) : subIdleTimer (s.withPins p) = (subIdleTimer s).withPins p :=
  periodicTimer_withPins putItCnt_withPins (fun _ _ => opIdleTick_withPins s) fun _ => rfl

theorem subWatchdog_withPins (s : State) : subWatchdog (s.withPins p) = (subWatchdog s).withPins p :=
  oneShot_withPins putWdCnt_withPins fun _ _ => rfl

theorem opPollTick_withPins (s : State) : opPollTick (s.withPins p) = (opPollTick s).withPins p := by
  have hadvance : opPollAdvance (s.withPins p) = (opPollAdvance s).withPins p := by
    refine Eq.trans ?_ (State.andThen_withPins fun _ => rfl)
    rw [← putPhase_withPins]
    rfl
  rw [opPollTick, opPollTick, ← ite_withPins, ← ite_withPins, ← ite_withPins, ← hadvance]
  rfl

theorem subPollTimer_withPins (s : State) : subPollTimer (s.withPins p) = (subPollTimer s).withPins p :=
  periodicTimer_withPins putPtCnt_withPins (fun _ _ => opPollTick_withPins s) fun _ => rfl

theorem opArbitrate_withPins (s : State) : opArbitrate (s.withPins p) = (opArbitrate s).withPins p := by
  rw [opArbitrate, opArbitrate, ← ite_withPins]
  rfl

theorem subArbitrate_withPins (s : State) : subArbitrate (s.withPins p) = (subArbitrate s).withPins p := by
  have hmode : (s.withPins p).mode = s.mode := rfl
  rw [subArbitrate, subArbitrate, hmode]
  cases s.mode with
  | undecided =>
    simp only []
    rw [← ite_withPins, opArbitrate_withPins]
    rfl
  | mux | serial | three => rfl

theorem build_withPins (s : State) (r : Report) : (s.withPins p).build r = (s.build r).withPins p := by
  rw [State.build_eq, State.build_eq]
  rfl

theorem subBuild_withPins (s : State) : subBuild (s.withPins p) = (subBuild s).withPins p := by
  have hmode : (s.withPins p).mode = s.mode := rfl
  rw [subBuild, subBuild, ← ite_withPins, hmode]
  refine if_congr Iff.rfl ?_ rfl
  cases s.mode with
  | mux => exact congrArg (·.emit 0x31) (build_withPins s _)
  | serial => exact congrArg (·.emit 0x32) (build_withPins s _)
  | undecided | three => rfl

/-! ### The readers -/

/-- The same request and EPRDY: what is read of the inputs beside the lines, DAT and HOLD. -/
def SameRequest (p q : Stim) : Prop := p.reqv = q.reqv ∧ p.request = q.request ∧ p.epRdy = q.epRdy

/-- S1 reads the request. -/
theorem subRequest_withPins (hp : SameRequest p s.pins) : subRequest (s.withPins p) = (subRequest s).withPins p := by
  obtain ⟨hreqv, hrequest, -⟩ := hp
  rw [subRequest, subRequest, ← ite_withPins, ← hreqv, ← hrequest]
  refine if_congr Iff.rfl ?_ rfl
  show opRequest p.request _ = _
  cases p.request <;> rfl

/-- S9 reads EPRDY. -/
theorem subTransmit_withPins (hp : SameRequest p s.pins) :
    subTransmit (s.withPins p) = (subTransmit s).withPins p := by
  obtain ⟨-, -, hready⟩ := hp
  rw [subTransmit, subTransmit, ← ite_withPins, ← hready]
  rfl

/-- A latch reads the lines (41_mux_engine.md R72), and shows in the trace. -/
theorem opSampleLatch_withPins
    (hl : (p.lines0 = s.pins.lines0 ∧ p.lines1 = s.pins.lines1) ∨ 0x04 ∉ (opSampleLatch s).trace) :
    opSampleLatch (s.withPins p) = (opSampleLatch s).withPins p := by
  have hphase : (s.withPins p).phase = s.phase := rfl
  rw [opSampleLatch, hphase]
  rw [opSampleLatch] at hl ⊢
  cases hi : rawIndex s.phase with
  | none => rfl
  | some i =>
    rw [hi] at hl
    obtain ⟨h0, h1⟩ := hl.resolve_right (by simp)
    simp only [← h0, ← h1]
    rfl

/-- S6 without a latch reads no input. -/
theorem subSettle_withPins
    (hl : (p.lines0 = s.pins.lines0 ∧ p.lines1 = s.pins.lines1) ∨ 0x04 ∉ (subSettle s).trace) :
    subSettle (s.withPins p) = (subSettle s).withPins p := by
  refine oneShot_withPins putStCnt_withPins fun ha hcnt => opSampleLatch_withPins (hl.imp_right fun hn => ?_)
  rwa [subSettle, oneShot, if_pos (show s.needSample = true from ha), if_pos (show s.stCnt = 0 from hcnt)] at hn

theorem opSerGap_withPins (s : State) : opSerGap (s.withPins p) = (opSerGap s).withPins p := by
  refine Eq.trans ?_ (State.andThen_withPins fun _ => rfl)
  rw [← State.countDown_withPins putGapCnt_withPins]
  rfl

theorem edgeAdvance_withPins (b e : Nat) (s : State) :
    edgeAdvance b e (s.withPins p) = (edgeAdvance b e s).withPins p := by
  have hbyte : ((s.withPins p).putByteIdx (b + 1)).andThen (fun t => t.putEdgeIdx 0) =
      ((s.putByteIdx (b + 1)).andThen fun t => t.putEdgeIdx 0).withPins p := by
    rw [putByteIdx_withPins]
    exact State.andThen_withPins fun _ => putEdgeIdx_withPins _ _
  rw [edgeAdvance, edgeAdvance, ← ite_withPins, ← ite_withPins, ← hbyte, ← putEdgeIdx_withPins]
  rfl

/-- A rising edge reads DAT into the accumulator (42_serial_engine.md R81). -/
theorem edgeAcc_withPins (hd : p.dat = s.pins.dat) (b e : Nat) : edgeAcc b e (s.withPins p) = edgeAcc b e s := by
  unfold edgeAcc
  rw [← hd]
  rfl

/-- The advance of an edge adds at most the code of SER_COMPLETE to the trace. -/
theorem edgeAdvance_trace (b e : Nat) (s : State) :
    (edgeAdvance b e s).trace = s.trace ∨ (edgeAdvance b e s).trace = s.trace ++ [0x13] := by
  have hedge : ∀ u v, (State.putEdgeIdx u v).trace = u.trace := fun u v => by
    unfold State.putEdgeIdx; split <;> rfl
  unfold edgeAdvance
  split
  · split
    · exact .inr rfl
    · exact .inl (State.andThen_keeps (f := State.trace) (by unfold State.putByteIdx; split <;> rfl)
        fun t ht => (hedge t 0).trans ht)
  · exact .inl (hedge s _)

/-- An edge at indices in range shows in the trace. -/
theorem edgeAdvance_edge_mem_trace (b e : Nat) (s : State) :
    0x12 ∈ (edgeAdvance b e (edgeAttention b e (edgeDataOut b e (edgeShift b e
      (edgeClock e (s.emit 0x12)))))).trace := by
  rw [edge_actions]
  rcases edgeAdvance_trace b e _ with h | h <;> rw [h] <;> simp

/-- An edge without its code in the trace is one at an index out of range. -/
theorem opSerEdge_withPins (hd : p.dat = s.pins.dat ∨ 0x12 ∉ (opSerEdge s).trace) :
    opSerEdge (s.withPins p) = (opSerEdge s).withPins p := by
  rw [opSerEdge, opSerEdge, ← ite_withPins]
  refine if_ctx_congr Iff.rfl (fun hrange => ?_) fun _ => rfl
  rw [opSerEdge, if_pos hrange] at hd
  have hdat : p.dat = s.pins.dat := hd.resolve_right (not_not_intro (edgeAdvance_edge_mem_trace _ _ s))
  rw [edge_actions, edge_actions, edgeAcc_withPins hdat, ← edgeAdvance_withPins]
  rfl

theorem opSerTick_withPins (hd : p.dat = s.pins.dat ∨ 0x12 ∉ (opSerTick s).trace) :
    opSerTick (s.withPins p) = (opSerTick s).withPins p := by
  have hphase : (s.withPins p).serPhase = s.serPhase := rfl
  rw [opSerTick, hphase]
  rw [opSerTick] at hd ⊢
  cases hp : s.serPhase with
  | gap =>
    simp only []
    rw [← ite_withPins, opSerGap_withPins]
    rfl
  | active =>
    rw [hp] at hd
    exact opSerEdge_withPins hd

/-- S4 reads HOLD while it is enabled, and DAT at an edge (40_timing_service.md R63). -/
theorem subSerialTimer_withPins (hh : p.hold = s.pins.hold ∨ s.serEn = false)
    (hd : p.dat = s.pins.dat ∨ 0x12 ∉ (subSerialTimer s).trace) :
    subSerialTimer (s.withPins p) = (subSerialTimer s).withPins p := by
  have hen : (s.serEn && !p.hold) = (s.serEn && !s.pins.hold) := by
    rcases hh with h | h <;> rw [h]
    rfl
  have hen' : ((s.withPins p).serEn && !(s.withPins p).pins.hold) = (s.serEn && !s.pins.hold) := hen
  rw [subSerialTimer, hen']
  refine periodicTimer_withPins putScCnt_withPins (fun hen hcnt => opSerTick_withPins (hd.imp_right fun hn => ?_))
    fun _ => rfl
  have hput : ∀ u v, (State.putScCnt u v).trace = u.trace := fun u v => by unfold State.putScCnt; split <;> rfl
  rw [subSerialTimer, periodicTimer, if_pos hen, if_pos (show s.scCnt = 1 from hcnt),
    State.andThen_keeps (f := State.trace) rfl fun t ht => (hput t _).trans ht] at hn
  exact hn

/-! ### The whole step -/

/-- The sub-steps that read at most the request and EPRDY. -/
theorem SubStep.run_withPins {x : SubStep} (hx : x ≠ .serialTimer ∧ x ≠ .settle) (hp : SameRequest p s.pins) :
    x.run (s.withPins p) = (x.run s).withPins p := by
  cases x with
  | request => exact subRequest_withPins hp
  | idleTimer => exact subIdleTimer_withPins s
  | watchdog => exact subWatchdog_withPins s
  | serialTimer => exact absurd rfl hx.1
  | pollTimer => exact subPollTimer_withPins s
  | settle => exact absurd rfl hx.2
  | arbitrate => exact subArbitrate_withPins s
  | build => exact subBuild_withPins s
  | transmit => exact subTransmit_withPins hp

theorem runSubSteps_withPins {xs : List SubStep} (hx : ∀ x ∈ xs, x ≠ .serialTimer ∧ x ≠ .settle)
    (hp : SameRequest p s.pins) : runSubSteps xs (s.withPins p) = (runSubSteps xs s).withPins p := by
  induction xs generalizing s with
  | nil => rfl
  | cons x xs ih =>
    obtain ⟨hrun, hrest⟩ := List.forall_mem_cons.mp hx
    have hpins : (s.andThen x.run).pins = s.pins := runSubSteps_pins [x] s
    have hfirst : (s.withPins p).andThen x.run = (s.andThen x.run).withPins p :=
      State.andThen_withPins fun _ => SubStep.run_withPins hrun hp
    exact (congrArg (runSubSteps xs) hfirst).trans (ih hrest (hpins ▸ hp))

/-- S4 to S9. -/
def SubStep.fromSerialTimer : List SubStep := [.serialTimer, .pollTimer, .settle, .arbitrate, .build, .transmit]

/-- S4 in its place: the rest of the step emits no code of the serial engine. -/
theorem serialTimer_step_withPins (hh : p.hold = s.pins.hold ∨ s.serEn = false) (hd : p.dat = s.pins.dat ∨
      0x12 ∉ (runSubSteps SubStep.fromSerialTimer s).trace) :
    (s.withPins p).andThen subSerialTimer = (s.andThen subSerialTimer).withPins p := by
  refine State.andThen_withPins fun hf => subSerialTimer_withPins hh (hd.imp_right fun hn => ?_)
  have hlate := runSubSteps_mem_trace (c := 0x12) (xs := [.pollTimer, .settle, .arbitrate, .build, .transmit])
    (by decide) (s.andThen subSerialTimer)
  have hrun : s.andThen subSerialTimer = subSerialTimer s := State.andThen_of_noFault hf _
  exact fun hin => hn (hlate.mpr (hrun.symm ▸ hin))

/-- S6 in its place: the rest of the step emits no code of the multiplexed engine. -/
theorem settle_step_withPins (hl : (p.lines0 = s.pins.lines0 ∧ p.lines1 = s.pins.lines1) ∨
      0x04 ∉ (runSubSteps [.settle, .arbitrate, .build, .transmit] s).trace) :
    (s.withPins p).andThen subSettle = (s.andThen subSettle).withPins p := by
  refine State.andThen_withPins fun hf => subSettle_withPins (hl.imp_right fun hn => ?_)
  have hlate := runSubSteps_mem_trace (c := 0x04) (xs := [.arbitrate, .build, .transmit]) (by decide)
    (s.andThen subSettle)
  have hrun : s.andThen subSettle = subSettle s := State.andThen_of_noFault hf _
  exact fun hin => hn (hlate.mpr (hrun.symm ▸ hin))

/-- S7 alone switches the serial timer. -/
theorem runSubSteps_serEn {xs : List SubStep} (hx : ∀ x ∈ xs, x.owner ≠ .arbiter) (s : State) :
    (runSubSteps xs s).serEn = s.serEn := by
  refine runSubSteps_keeps (fun x hmem t => ?_) s
  have hne := hx x hmem
  cases x with
  | arbitrate => exact absurd rfl hne
  | request | idleTimer | watchdog | serialTimer | pollTimer | settle | build | transmit => rfl

/-- S4 to S9 see other inputs only where they read them. -/
theorem runSubSteps_fromSerialTimer_withPins (hp : SameRequest p s.pins)
    (hh : p.hold = s.pins.hold ∨ s.serEn = false)
    (hd : p.dat = s.pins.dat ∨ 0x12 ∉ (runSubSteps SubStep.fromSerialTimer s).trace)
    (hl : (p.lines0 = s.pins.lines0 ∧ p.lines1 = s.pins.lines1) ∨
      0x04 ∉ (runSubSteps SubStep.fromSerialTimer s).trace) :
    runSubSteps SubStep.fromSerialTimer (s.withPins p) = (runSubSteps SubStep.fromSerialTimer s).withPins p := by
  have hfour := serialTimer_step_withPins hh hd
  have hfive : ((s.withPins p).andThen subSerialTimer).andThen subPollTimer =
      ((s.andThen subSerialTimer).andThen subPollTimer).withPins p := by
    rw [hfour]
    exact State.andThen_withPins fun _ => subPollTimer_withPins _
  generalize hu : (s.andThen subSerialTimer).andThen subPollTimer = u at hfive
  have hpins5 : u.pins = s.pins := hu ▸ runSubSteps_pins [.serialTimer, .pollTimer] s
  have hrest : runSubSteps SubStep.fromSerialTimer s = runSubSteps [.settle, .arbitrate, .build, .transmit] u :=
    hu ▸ rfl
  rw [hrest, ← hpins5] at hl
  have hpins6 : (u.andThen subSettle).pins = u.pins := runSubSteps_pins [.settle] u
  calc runSubSteps SubStep.fromSerialTimer (s.withPins p)
    _ = runSubSteps [.arbitrate, .build, .transmit]
        ((((s.withPins p).andThen subSerialTimer).andThen subPollTimer).andThen subSettle) := rfl
    _ = runSubSteps [.arbitrate, .build, .transmit] ((u.andThen subSettle).withPins p) := by
        rw [hfive, settle_step_withPins hl]
    _ = (runSubSteps SubStep.fromSerialTimer s).withPins p := by
        rw [runSubSteps_withPins (by decide) (by rwa [hpins6, hpins5]), hrest]
        rfl

/-- A step sees other inputs only where it reads them: the lines in a latch, DAT in a serial edge, HOLD while the serial
timer is enabled. -/
theorem opStep_withPins {st : Stim} (hf : s.fault = none) (hp : SameRequest p st)
    (hh : p.hold = st.hold ∨ s.serEn = false) (hd : p.dat = st.dat ∨ 0x12 ∉ (opStep st s).trace)
    (hl : (p.lines0 = st.lines0 ∧ p.lines1 = st.lines1) ∨ 0x04 ∉ (opStep st s).trace) :
    opStep p s = (opStep st s).withPins p := by
  have hpins3 := runSubSteps_pins [.request, .idleTimer, .watchdog] (s.beginStep st)
  have hen3 := runSubSteps_serEn (xs := [.request, .idleTimer, .watchdog]) (by decide) (s.beginStep st)
  have hthree := runSubSteps_withPins (p := p) (xs := [.request, .idleTimer, .watchdog]) (by decide)
    (s := s.beginStep st) hp
  have hsplit : ∀ q, opStep q s = runSubSteps SubStep.fromSerialTimer
      (runSubSteps [.request, .idleTimer, .watchdog] (s.beginStep q)) := fun q => opStep_eq_runSubSteps q hf
  have hstart : s.beginStep p = (s.beginStep st).withPins p := rfl
  rw [hsplit st] at hd hl ⊢
  rw [hsplit p, hstart, hthree]
  generalize runSubSteps [.request, .idleTimer, .watchdog] (s.beginStep st) = u at *
  obtain rfl : u.pins = st := hpins3
  exact runSubSteps_fromSerialTimer_withPins hp (hen3 ▸ hh) hd hl

end WithPins

/-- Settles O43: each input has one reader in the step beside the request and EPRDY, and where it does not read, the
step is the same. -/
theorem inputsMatterToTheirReadersOnly : Obligations.InputsMatterToTheirReadersOnly := by
  unfold Obligations.InputsMatterToTheirReadersOnly
  intro s t st e
  rw [exec_step] at e
  obtain ⟨hf, rfl⟩ := runOp_eq_next.mp e
  simp only [exec_step, runOp_of_noFault hf]
  refine ⟨fun l0 l1 hn => ?_, fun d hn => ?_, fun h hen => ?_⟩
  · exact congrArg _ (opStep_withPins hf ⟨rfl, rfl, rfl⟩ (.inl rfl) (.inl rfl) (.inr hn))
  · exact congrArg _ (opStep_withPins hf ⟨rfl, rfl, rfl⟩ (.inl rfl) (.inr hn) (.inl ⟨rfl, rfl⟩))
  · exact congrArg _ (opStep_withPins hf ⟨rfl, rfl, rfl⟩ (.inr hen) (.inl rfl) (.inl ⟨rfl, rfl⟩))

end Sys2Proof.Machine
end

section
/-! Proofs of the statements of 20_memory.md: the order in which a response byte is assembled, the answers and the
report as they leave the core, the two builds, and the writer of every element of the state. -/

namespace Sys2Proof.Machine

variable {s t u : State}

/-! ## Response bits (R39, 42_serial_engine.md R81) -/

/-- A shift brings the new bit in at the top and moves every other bit one place down. -/
theorem shiftIn_getLsbD (v : Byte) (dat : Bool) {k : Nat} (hk : k < 8) :
    (shiftIn v dat).getLsbD k = if k = 7 then dat else v.getLsbD (k + 1) := by
  have hlt : k < 7 ∨ k = 7 := by omega
  rcases hlt with hlt | rfl
  · simp [shiftIn, hk, hlt, Nat.ne_of_lt hlt, Nat.add_comm]
  · simp [shiftIn]

/-- The bits shifted in stand at the top of the slot, the last one at bit 7. -/
theorem foldl_shiftIn_getLsbD (v : Byte) (bits : List Bool) :
    ∀ k < 8, 8 ≤ k + bits.length →
      bits[k + bits.length - 8]? = some ((bits.foldl shiftIn v).getLsbD k) := by
  induction bits using List.reverseRecOn with
  | nil => intro k hk hlen; simp only [List.length_nil] at hlen; omega
  | append_singleton bits dat ih =>
    intro k hk hlen
    rw [List.foldl_concat, shiftIn_getLsbD _ _ hk]
    simp only [List.length_append, List.length_singleton] at hlen ⊢
    split
    · next h7 =>
      obtain rfl := h7
      rw [show 7 + (bits.length + 1) - 8 = bits.length by omega, List.getElem?_concat_length]
    · next h7 =>
      rw [List.getElem?_append_left (by omega), ← ih (k + 1) (by omega) (by omega)]
      congr 1
      omega

/-- Settles O25: after eight shifts the k-th bit shifted in has been moved down to bit k. -/
theorem responseBitsAssembleLsbFirst : Obligations.ResponseBitsAssembleLsbFirst := by
  unfold Obligations.ResponseBitsAssembleLsbFirst
  intro v bits k
  have hk := foldl_shiftIn_getLsbD v bits.toList k k.isLt (by simp)
  simpa using hk.symm

/-! ## The report and the answers as they leave the core (R39, R42) -/

/-- Settles O33: TRANSMIT writes the report into the output and clears both causes. -/
theorem transmitHandsOverTheReport : Obligations.TransmitHandsOverTheReport := by
  unfold Obligations.TransmitHandsOverTheReport
  exact fun s hf => ⟨opTransmit s, runOp_of_noFault hf _, rfl, rfl, rfl⟩

/-- Settles O34: each of the two requests writes its answer, whose bytes the outputs show, and its code. -/
theorem getRequestsAnswerWithData : Obligations.GetRequestsAnswerWithData := by
  unfold Obligations.GetRequestsAnswerWithData
  exact fun s hf => ⟨⟨opGetReport s, runOp_of_noFault hf _, rfl, rfl, rfl, rfl⟩,
    ⟨opGetIdle s, runOp_of_noFault hf _, rfl, rfl, rfl, rfl⟩⟩

/-! ## The two builds (44_report_formatter.md R105) -/

/-- The active-high bit of a line at phase 3 (R97). -/
theorem State.p3_getLsbD (s : State) (c : Fin 2) {k : Nat} (hk : k < 8) : (s.p3 c).getLsbD k = s.pressed c 3 k := by
  simp [State.p3, State.pressed, hk]

/-- Opposite directions that agree center an axis (R98). -/
theorem axis_self (b : Bool) : axis b b = 0x7F := by
  cases b <;> rfl

/-- A port with all its lines released shows centered axes. -/
theorem State.axes_of_released {c : Fin 2} (h : ∀ p : Fin 8, s.readRaw c p = 0xFF) :
    s.xAxis c = 0x7F ∧ s.yAxis c = 0x7F := by
  have hp3 : s.p3 c = 0 := by rw [State.p3, h]; rfl
  rw [State.xAxis, State.yAxis, hp3]
  exact ⟨rfl, rfl⟩

/-- A port with all its lines released shows no button. -/
theorem State.btn_of_released {c : Fin 2} (h : ∀ p : Fin 8, s.readRaw c p = 0xFF) : s.btn c = 0x00 := by
  simp [State.btn, State.six, State.p2, State.p3, h]

/-- The report of a released raw table is the reset report (R105). -/
theorem State.muxReport_of_released (h : ∀ (c : Fin 2) (p : Fin 8), s.readRaw c p = 0xFF) :
    s.muxReport = .safeDefault := by
  simp [State.muxReport, Report.safeDefault, State.axes_of_released (h _), State.btn_of_released (h _)]

theorem State.build_rpt (s : State) (new : Report) : (s.build new).rpt = new := by
  rw [State.build_eq]

/-- A build of the report that is held already changes neither it nor the flag (R103). -/
theorem State.build_of_held {new : Report} (h : s.rpt = new) :
    (s.build new).rpt = s.rpt ∧ (s.build new).sendPending = s.sendPending := by
  simp [State.build_eq, h]

theorem opBuildMux_rpt (s : State) : (opBuildMux s).rpt = s.muxReport := s.build_rpt _

theorem opBuildSer_rpt (s : State) : (opBuildSer s).rpt = s.serReport := s.build_rpt _

theorem opBuildMux_fault (s : State) : (opBuildMux s).fault = s.fault := by
  rw [opBuildMux, State.build_eq]; rfl

theorem opBuildSer_fault (s : State) : (opBuildSer s).fault = s.fault := by
  rw [opBuildSer, State.build_eq]; rfl

/-- A build keeps the raw table that the next one reads. -/
theorem opBuildMux_muxReport (s : State) : (opBuildMux s).muxReport = s.muxReport := by
  rw [opBuildMux, State.build_eq]; rfl

/-- A build keeps the accumulator and the permutation that the next one reads. -/
theorem opBuildSer_serReport (s : State) : (opBuildSer s).serReport = s.serReport := by
  rw [opBuildSer, State.build_eq]; rfl

/-- A second BUILD_MUX finds the report that it makes (R105). -/
theorem opBuildMux_again (s : State) : (opBuildMux (opBuildMux s)).rpt = (opBuildMux s).rpt ∧
    (opBuildMux (opBuildMux s)).sendPending = (opBuildMux s).sendPending := by
  have hheld := (opBuildMux_rpt s).trans (opBuildMux_muxReport s).symm
  generalize opBuildMux s = u at hheld ⊢
  exact State.build_of_held hheld

/-- A second BUILD_SER finds the report that it makes (R105). -/
theorem opBuildSer_again (s : State) : (opBuildSer (opBuildSer s)).rpt = (opBuildSer s).rpt ∧
    (opBuildSer (opBuildSer s)).sendPending = (opBuildSer s).sendPending := by
  have hheld := (opBuildSer_rpt s).trans (opBuildSer_serReport s).symm
  generalize opBuildSer s = u at hheld ⊢
  exact State.build_of_held hheld

/-- The report of an all-ones accumulator under the default permutation: its slots 0 and 1 are inverted into the button
bytes (R102). -/
theorem State.serReport_of_ones (hq : s.params.serialPerm = Params.default.serialPerm)
    (ha : s.acc = Vector.replicate 6 0xFF) : s.serReport.toList = [0xFF, 0xFF, 0xFF, 0xFF, 0x00, 0x00] := by
  rw [State.serReport, hq, ha]
  decide

/-- Opposite directions that agree center the X axis (R98). -/
theorem State.xAxis_of_tie {c : Fin 2} (h : s.pressed c 3 2 = s.pressed c 3 3) : s.xAxis c = 0x7F := by
  rw [State.xAxis, s.p3_getLsbD c (by decide), s.p3_getLsbD c (by decide), ← h, axis_self]

/-- Opposite directions that agree center the Y axis (R98). -/
theorem State.yAxis_of_tie {c : Fin 2} (h : s.pressed c 3 0 = s.pressed c 3 1) : s.yAxis c = 0x7F := by
  rw [State.yAxis, s.p3_getLsbD c (by decide), s.p3_getLsbD c (by decide), ← h, axis_self]

/-- Settles O30: the axes by the cases of a direction pair; a second build reads what the first one read, so it finds
its report held. -/
theorem formatterProperties : Obligations.FormatterProperties := by
  unfold Obligations.FormatterProperties
  constructor
  · intro s t e
    obtain ⟨hf, rfl⟩ := runOp_eq_next.mp e
    have hagain : ∃ u, exec .buildMux (opBuildMux s) = .next u ∧ u.rpt = (opBuildMux s).rpt ∧
        u.sendPending = (opBuildMux s).sendPending :=
      ⟨_, runOp_of_noFault ((opBuildMux_fault s).trans hf) _, opBuildMux_again s⟩
    rw [opBuildMux_rpt] at hagain ⊢
    exact ⟨axis_legal _ _, axis_legal _ _, axis_legal _ _, axis_legal _ _, State.xAxis_of_tie, State.yAxis_of_tie,
      State.xAxis_of_tie, State.yAxis_of_tie, fun h => congrArg Report.toList (State.muxReport_of_released h), hagain⟩
  · intro s t e
    obtain ⟨hf, rfl⟩ := runOp_eq_next.mp e
    refine ⟨fun hq ha => ?_, _, runOp_of_noFault ((opBuildSer_fault s).trans hf) _, opBuildSer_again s⟩
    rw [opBuildSer_rpt, State.serReport_of_ones hq ha]

/-! ## The ownership table (R46)

A row of the table is kept by a stretch of a step, or one of its writers ran in it, or the stretch holds the row's
timer and counted it down. The three pass through operations, timers and sub-steps, from the end of each to the next. -/

/-- The rows of R46; a flag has a row for its setters and one for its clearers, and the elements that the same
operations write together share a row. -/
inductive Row where
  | raw
  | phase
  | sel
  | needSampleSet
  | needSampleClear
  | stCnt
  | ptPeriod
  | ptCnt
  | acc
  | indices
  | serPhase
  | gapCnt
  | att
  | clkCmd
  | wdArmedSet
  | wdArmedClear
  | wdCnt
  | scCnt
  | completeSet
  | completeClear
  | rpt
  | pendingSet
  | pendingClear
  | selection
  | idleCnt
  | elapsedSet
  | elapsedClear
  | itCnt
  | idleRate
  | params
  deriving DecidableEq

/-- The codes of the operations that write the row (30_encoding.md R52). -/
def Row.writers : Row → List Byte
  | .raw => [0x04]
  | .phase => [0x01, 0x02, 0x03]
  | .sel => [0x01, 0x02]
  | .needSampleSet => [0x01, 0x03]
  | .needSampleClear => [0x04, 0x30]
  | .stCnt => [0x01, 0x03]
  | .ptPeriod => [0x02, 0x03]
  | .ptCnt => [0x01, 0x02, 0x03]
  | .acc => [0x11, 0x12, 0x14, 0x30]
  | .indices => [0x11, 0x12, 0x14, 0x30]
  | .serPhase => [0x11, 0x13, 0x14, 0x30]
  | .gapCnt => [0x10, 0x13, 0x14, 0x30]
  | .att => [0x11, 0x12, 0x14, 0x30]
  | .clkCmd => [0x12, 0x14, 0x30]
  | .wdArmedSet => [0x11]
  | .wdArmedClear => [0x13, 0x14, 0x30]
  | .wdCnt => [0x11, 0x13, 0x14, 0x30]
  | .scCnt => [0x10, 0x11, 0x12, 0x30]
  | .completeSet => [0x02, 0x13]
  | .completeClear => [0x30, 0x31, 0x32]
  | .rpt => [0x31, 0x32]
  | .pendingSet => [0x31, 0x32]
  | .pendingClear => [0x33]
  | .selection => [0x30]
  | .idleCnt => [0x20, 0x33, 0x42]
  | .elapsedSet => [0x20]
  | .elapsedClear => [0x33, 0x42]
  | .itCnt => [0x20, 0x33]
  | .idleRate => [0x42]
  | .params => []

/-- The row is as before from `s` to `t`: its elements are the same; its flag is not newly set, or not newly cleared.
A count is kept with what enables its countdown, which must not be newly on. -/
def Row.Kept (row : Row) (s t : State) : Prop :=
  match row with
  | .raw => t.raw = s.raw
  | .phase => t.phase = s.phase
  | .sel => t.sel = s.sel
  | .needSampleSet => t.needSample = true → s.needSample = true
  | .needSampleClear => s.needSample = true → t.needSample = true
  | .stCnt => t.stCnt = s.stCnt ∧ (t.needSample = true → s.needSample = true)
  | .ptPeriod => t.ptPeriod = s.ptPeriod
  | .ptCnt => t.ptCnt = s.ptCnt ∧ (t.ptEn = true → s.ptEn = true)
  | .acc => t.acc = s.acc
  | .indices => t.byteIdx = s.byteIdx ∧ t.edgeIdx = s.edgeIdx
  | .serPhase => t.serPhase = s.serPhase
  | .gapCnt => t.gapCnt = s.gapCnt
  | .att => t.att = s.att
  | .clkCmd => t.clk = s.clk ∧ t.cmd = s.cmd
  | .wdArmedSet => t.wdArmed = true → s.wdArmed = true
  | .wdArmedClear => s.wdArmed = true → t.wdArmed = true
  | .wdCnt => t.wdCnt = s.wdCnt ∧ (t.wdArmed = true → s.wdArmed = true)
  | .scCnt => t.scCnt = s.scCnt ∧ (t.serEn = true ∧ t.pins.hold = false → s.serEn = true ∧ s.pins.hold = false)
  | .completeSet => t.sampleComplete = true → s.sampleComplete = true
  | .completeClear => s.sampleComplete = true → t.sampleComplete = true
  | .rpt => t.rpt = s.rpt
  | .pendingSet => t.sendPending = true → s.sendPending = true
  | .pendingClear => s.sendPending = true → t.sendPending = true
  | .selection => t.mode = s.mode ∧ t.ptEn = s.ptEn ∧ t.serEn = s.serEn ∧ t.selOe = s.selOe ∧ t.serOe = s.serOe
  | .idleCnt => t.idleCnt = s.idleCnt
  | .elapsedSet => t.idleElapsed = true → s.idleElapsed = true
  | .elapsedClear => s.idleElapsed = true → t.idleElapsed = true
  | .itCnt => t.itCnt = s.itCnt
  | .idleRate => t.idleRate = s.idleRate
  | .params => t.params = s.params

/-- One of the operations with these codes ran. -/
def State.ran (t : State) : List Byte → Prop
  | [] => False
  | [c] => c ∈ t.trace
  | c :: d :: cs => c ∈ t.trace ∨ t.ran (d :: cs)

/-- The Timing Service's countdown of a row's count, enabled and by one (40_timing_service.md R61 to R65). -/
def Row.CountedDown (row : Row) (s t : State) : Prop :=
  match row with
  | .stCnt => s.needSample = true ∧ t.stCnt + 1 = s.stCnt
  | .ptCnt => s.ptEn = true ∧ t.ptCnt + 1 = s.ptCnt
  | .wdCnt => s.wdArmed = true ∧ t.wdCnt + 1 = s.wdCnt
  | .scCnt => s.serEn = true ∧ s.pins.hold = false ∧ t.scCnt + 1 = s.scCnt
  | .itCnt => t.itCnt + 1 = s.itCnt
  | .raw | .phase | .sel | .needSampleSet | .needSampleClear | .ptPeriod | .acc | .indices | .serPhase | .gapCnt
  | .att | .clkCmd | .wdArmedSet | .wdArmedClear | .completeSet | .completeClear | .rpt | .pendingSet | .pendingClear
  | .selection | .idleCnt | .elapsedSet | .elapsedClear | .idleRate | .params => False

/-! ### The three ways -/

theorem State.ran_iff (t : State) (cs : List Byte) : t.ran cs ↔ ∃ c ∈ cs, c ∈ t.trace := by
  fun_induction State.ran t cs with
  | case1 => simp
  | case2 c => simp
  | case3 c d cs ih => simp [ih]

theorem State.ran_of_mem {c : Byte} {cs : List Byte} (hc : c ∈ cs) (ht : c ∈ t.trace) : t.ran cs :=
  (t.ran_iff cs).mpr ⟨c, hc, ht⟩

theorem State.ran_mono {cs : List Byte} (h : ∀ c ∈ s.trace, c ∈ t.trace) (hr : s.ran cs) : t.ran cs := by
  obtain ⟨c, hc, hs⟩ := (s.ran_iff cs).mp hr
  exact State.ran_of_mem hc (h c hs)

/-- The codes with another case after them, as one disjunction. -/
theorem State.ran_or {cs : List Byte} {p : Prop} (h : t.ran cs ∨ p) : cs.foldr (fun c q => c ∈ t.trace ∨ q) p := by
  fun_induction State.ran t cs with
  | case1 => exact h.resolve_left id
  | case2 c => exact h
  | case3 c d cs ih => exact (or_assoc.mp h).imp_right ih

theorem Row.Kept.refl (row : Row) (s : State) : row.Kept s s := by
  cases row <;> simp [Row.Kept]

theorem Row.Kept.trans {row : Row} (hsu : row.Kept s u) (hut : row.Kept u t) : row.Kept s t := by
  cases row with
  | stCnt | ptCnt | wdCnt | scCnt => exact ⟨hut.1.trans hsu.1, fun h => hsu.2 (hut.2 h)⟩
  | indices | clkCmd => exact ⟨hut.1.trans hsu.1, hut.2.trans hsu.2⟩
  | selection =>
    obtain ⟨hmode, hpt, hser, hsel, hoe⟩ := hsu
    obtain ⟨hmode', hpt', hser', hsel', hoe'⟩ := hut
    exact ⟨hmode'.trans hmode, hpt'.trans hpt, hser'.trans hser, hsel'.trans hsel, hoe'.trans hoe⟩
  | needSampleSet | wdArmedSet | completeSet | pendingSet | elapsedSet => exact fun h => hsu (hut h)
  | needSampleClear | wdArmedClear | completeClear | pendingClear | elapsedClear => exact fun h => hut (hsu h)
  | raw | phase | sel | ptPeriod | acc | serPhase | gapCnt | att | rpt | idleCnt | itCnt | idleRate | params =>
    exact Eq.trans hut hsu

theorem Row.CountedDown.of_kept_left {row : Row} (hsu : row.Kept s u) (hut : row.CountedDown u t) :
    row.CountedDown s t := by
  cases row with
  | stCnt | ptCnt | wdCnt => exact ⟨hsu.2 hut.1, hut.2.trans hsu.1⟩
  | scCnt =>
    obtain ⟨hen, hhold, hcnt⟩ := hut
    obtain ⟨hen', hhold'⟩ := hsu.2 ⟨hen, hhold⟩
    exact ⟨hen', hhold', hcnt.trans hsu.1⟩
  | itCnt => exact Eq.trans hut hsu
  | _ => exact hut.elim

theorem Row.CountedDown.of_kept_right {row : Row} (hsu : row.CountedDown s u) (hut : row.Kept u t) :
    row.CountedDown s t := by
  cases row with
  | stCnt | ptCnt | wdCnt => exact ⟨hsu.1, (congrArg (· + 1) hut.1).trans hsu.2⟩
  | scCnt =>
    obtain ⟨hen, hhold, hcnt⟩ := hsu
    exact ⟨hen, hhold, (congrArg (· + 1) hut.1).trans hcnt⟩
  | itCnt => exact (congrArg (· + 1) hut).trans hsu
  | _ => exact hsu.elim

/-- From `s` to `t` the trace only grew, and each row is kept, or one of its writers ran, or it is among the `timers`
of the stretch and was counted down. -/
structure Accounted (timers : List Row) (s t : State) : Prop where
  trace : ∀ c ∈ s.trace, c ∈ t.trace
  rows : ∀ row : Row, row.Kept s t ∨ t.ran row.writers ∨ (row ∈ timers ∧ row.CountedDown s t)

theorem Accounted.of_kept {timers : List Row} (htrace : t.trace = s.trace) (h : ∀ row : Row, row.Kept s t) :
    Accounted timers s t :=
  ⟨fun _ hc => htrace ▸ hc, fun row => .inl (h row)⟩

theorem Accounted.refl (timers : List Row) (s : State) : Accounted timers s s :=
  .of_kept rfl fun row => .refl row s

theorem Accounted.raise (timers : List Row) (s : State) (r : Fault) : Accounted timers s (s.raise r) :=
  .of_kept rfl fun row => (Row.Kept.refl row s).trans (by cases row <;> simp [Row.Kept])

/-- What leaves the codes `cs` accounts for the rows that they write, and need keep the others only. -/
theorem Accounted.of_codes (cs : List Byte) (htrace : ∀ c ∈ s.trace, c ∈ t.trace) (hcs : ∀ c ∈ cs, c ∈ t.trace)
    (h : ∀ row : Row, (∀ c ∈ cs, c ∉ row.writers) → row.Kept s t) : Accounted [] s t where
  trace := htrace
  rows := fun row => by
    by_cases hc : ∃ c ∈ cs, c ∈ row.writers
    · obtain ⟨c, hmem, hw⟩ := hc
      exact .inr (.inl (State.ran_of_mem hw (hcs c hmem)))
    · exact .inl (h row fun c hmem hw => hc ⟨c, hmem, hw⟩)

/-- An operation that leaves one code. Its record is compared with every row: the row lists the code, or the operation
leaves its elements alone. -/
theorem Accounted.of_code {c : Byte} (htrace : t.trace = s.trace ++ [c])
    (h : ∀ row : Row, c ∉ row.writers → row.Kept s t) : Accounted [] s t :=
  .of_codes [c] (fun _ hd => htrace ▸ List.mem_append_left _ hd) (by simp [htrace])
    fun row hc => h row (hc c (List.mem_singleton_self c))

/-- A write by an operation whose code stands in the trace. -/
theorem Accounted.of_mem {c : Byte} (hc : c ∈ s.trace) (htrace : t.trace = s.trace)
    (h : ∀ row : Row, c ∉ row.writers → row.Kept s t) : Accounted [] s t :=
  .of_codes [c] (fun _ hd => htrace ▸ hd) (by simpa [htrace] using hc)
    fun row hw => h row (hw c (List.mem_singleton_self c))

/-- Two stretches, one after the other, that hold no timer both. -/
theorem Accounted.trans {timers timers' : List Row} (hsu : Accounted timers s u) (hut : Accounted timers' u t)
    (hd : ∀ row ∈ timers, row ∉ timers') : Accounted (timers ++ timers') s t where
  trace := fun c hc => hut.trace c (hsu.trace c hc)
  rows := fun row => by
    rcases hut.rows row with hk' | hw' | ⟨hm', hc'⟩
    · rcases hsu.rows row with hk | hw | ⟨hm, hc⟩
      · exact .inl (hk.trans hk')
      · exact .inr (.inl (State.ran_mono hut.trace hw))
      · exact .inr (.inr ⟨List.mem_append_left _ hm, hc.of_kept_right hk'⟩)
    · exact .inr (.inl hw')
    · rcases hsu.rows row with hk | hw | ⟨hm, -⟩
      · exact .inr (.inr ⟨List.mem_append_right _ hm', .of_kept_left hk hc'⟩)
      · exact .inr (.inl (State.ran_mono hut.trace hw))
      · exact absurd hm' (hd row hm)

theorem Accounted.mono {timers timers' : List Row} (h : Accounted timers s t) (hsub : timers ⊆ timers') :
    Accounted timers' s t :=
  ⟨h.trace, fun row => (h.rows row).imp_right (Or.imp_right (And.imp_left (@hsub row)))⟩

/-- A sub-step after a stretch; a fault leaves it out. -/
theorem Accounted.andThen {timers timers' : List Row} {f : State → State} (h : Accounted timers s u)
    (hf : u.fault = none → Accounted timers' u (f u)) (hd : ∀ row ∈ timers, row ∉ timers') :
    Accounted (timers ++ timers') s (u.andThen f) := by
  rcases u.andThen_cases f with ⟨hu, e⟩ | ⟨r, -, e⟩ <;> rw [e]
  · exact h.trans (hf hu) hd
  · exact h.mono (List.subset_append_left _ _)

/-! ### Timers -/

/-- The writes of a row's count through `put`: every other row and the trace are left. -/
structure WritesCount (row : Row) (put : State → Nat → State) : Prop where
  trace : ∀ s v, (put s v).trace = s.trace
  others : ∀ s v, ∀ other : Row, other ≠ row → other.Kept s (put s v)

theorem Accounted.countDown {row : Row} {put : State → Nat → State} {cnt : Nat} (hput : WritesCount row put)
    (hcount : ∀ n, cnt = n + 1 → row.Kept s (put s n) ∨ row.CountedDown s (put s n)) :
    Accounted [row] s (s.countDown put cnt) := by
  cases cnt with
  | zero => exact .raise _ s _
  | succ n =>
    refine ⟨fun c hc => (hput.trace s n).symm ▸ hc, fun other => ?_⟩
    by_cases hrow : other = row
    · subst hrow
      exact (hcount n rfl).imp_right fun hc => .inr ⟨List.mem_singleton_self _, hc⟩
    · exact .inl (hput.others s n other hrow)

/-- A periodic timer whose handler, where it ends without a fault, ran a writer of the timer's count. -/
theorem periodicTimer_accounted {row : Row} {put : State → Nat → State} {en : Bool} {cnt : Nat}
    {handler : State → State} (period : State → Nat) (hput : WritesCount row put)
    (hcount : en = true → ∀ n, cnt = n + 1 → row.Kept s (put s n) ∨ row.CountedDown s (put s n))
    (hh : Accounted [] s (handler s)) (hw : (handler s).fault = none → (handler s).ran row.writers) :
    Accounted [row] s (periodicTimer en cnt put handler period s) := by
  rcases periodicTimer_cases en cnt put handler period s with ⟨-, e⟩ | ⟨-, -, e⟩ | ⟨hen, -, e⟩ <;> rw [e]
  · exact .refl _ s
  · rcases (handler s).andThen_cases fun t => put t (period t) with ⟨hf, e⟩ | ⟨r, -, e⟩ <;> rw [e]
    · have htrace := fun c (hc : c ∈ (handler s).trace) => (hput.trace (handler s) (period (handler s))).symm ▸ hc
      refine ⟨fun c hc => htrace c (hh.trace c hc), fun other => ?_⟩
      by_cases hrow : other = row
      · exact .inr (.inl (hrow ▸ State.ran_mono htrace (hw hf)))
      · rcases hh.rows other with hk | hr | ⟨hm, -⟩
        · exact .inl (hk.trans (hput.others _ _ other hrow))
        · exact .inr (.inl (State.ran_mono htrace hr))
        · cases hm
    · exact hh.mono (List.nil_subset _)
  · exact .countDown hput (hcount hen)

theorem oneShot_accounted {row : Row} {put : State → Nat → State} {armed : Bool} {cnt last : Nat}
    {handler : State → State} (hput : WritesCount row put)
    (hcount : armed = true → ∀ n, cnt = n + 1 → row.Kept s (put s n) ∨ row.CountedDown s (put s n))
    (hh : Accounted [] s (handler s)) : Accounted [row] s (oneShot armed cnt last put handler s) := by
  rcases oneShot_cases armed cnt last put handler s with ⟨-, e⟩ | ⟨-, -, e⟩ | ⟨harmed, -, e⟩ <;> rw [e]
  · exact .refl _ s
  · exact hh.mono (List.nil_subset _)
  · exact .countDown hput (hcount harmed)

/-! ### Host requests and the idle timer -/

theorem opRequest_accounted (r : Request) (s : State) : Accounted [] s (opRequest r s) := by
  cases r with
  | getReport => exact .of_code (c := 0x40) rfl fun row _ => by cases row <;> simp [Row.Kept, opRequest, opGetReport]
  | getIdle => exact .of_code (c := 0x41) rfl fun row _ => by cases row <;> simp [Row.Kept, opRequest, opGetIdle]
  | setIdle rate =>
    exact .of_code (c := 0x42) rfl fun row hc => by
      cases row <;> simp_all [Row.Kept, Row.writers, opRequest, opSetIdle]
  | unhandled rqt rq =>
    exact .of_code (c := 0x4F) rfl fun row _ => by cases row <;> simp [Row.Kept, opRequest, opReqUnhandled]

theorem subRequest_accounted (s : State) : Accounted [] s (subRequest s) := by
  unfold subRequest
  split
  · exact opRequest_accounted _ s
  · exact .refl _ s

theorem putIdleCnt_accounted (h : 0x20 ∈ s.trace) (v : Nat) : Accounted [] s (s.putIdleCnt v) := by
  unfold State.putIdleCnt
  split
  · exact .of_mem h rfl fun row hc => by cases row <;> simp_all [Row.Kept, Row.writers]
  · exact .raise _ s _

/-- The count of IDLE_TICK, which stands in the trace by then (45_idle_transmit_host.md R106). -/
theorem countIdle_accounted (h : 0x20 ∈ s.trace) : Accounted [] s s.countIdle := by
  have hput := putIdleCnt_accounted h (s.idleCnt + 1)
  refine hput.andThen (timers' := []) (fun _ => ?_) (by simp)
  split
  · exact .of_mem (hput.trace _ h) rfl fun row hc => by cases row <;> simp_all [Row.Kept, Row.writers]
  · exact .refl _ _

theorem emit_accounted (s : State) (c : Byte) : Accounted [] s (s.emit c) :=
  .of_code rfl fun row _ => by cases row <;> simp [Row.Kept]

theorem opIdleTick_accounted (s : State) : Accounted [] s (opIdleTick s) ∧ 0x20 ∈ (opIdleTick s).trace := by
  have hmem : 0x20 ∈ (s.emit 0x20).trace := by simp
  unfold opIdleTick
  split
  · have hcount := countIdle_accounted hmem
    exact ⟨(emit_accounted s 0x20).trans hcount (by simp), hcount.trace _ hmem⟩
  · exact ⟨emit_accounted s 0x20, hmem⟩

theorem putItCnt_writesCount : WritesCount .itCnt State.putItCnt where
  trace := fun s v => by unfold State.putItCnt; split <;> rfl
  others := fun s v row hrow => by unfold State.putItCnt; split <;> cases row <;> simp_all [Row.Kept]

theorem subIdleTimer_accounted (s : State) : Accounted [.itCnt] s (subIdleTimer s) := by
  obtain ⟨htick, hmem⟩ := opIdleTick_accounted s
  refine periodicTimer_accounted _ putItCnt_writesCount (fun _ n hn => ?_) htick fun _ =>
    State.ran_of_mem (c := 0x20) (by decide) hmem
  unfold State.putItCnt
  split
  · exact .inr hn.symm
  · exact .inl rfl

/-! ### The serial engine and its watchdog -/

theorem opWdogExpire_accounted (s : State) : Accounted [] s (opWdogExpire s) :=
  .of_code (c := 0x14) rfl fun row hc => by cases row <;> simp_all [Row.Kept, Row.writers, opWdogExpire]

theorem putWdCnt_writesCount : WritesCount .wdCnt State.putWdCnt where
  trace := fun s v => by unfold State.putWdCnt; split <;> rfl
  others := fun s v row hrow => by unfold State.putWdCnt; split <;> cases row <;> simp_all [Row.Kept]

theorem subWatchdog_accounted (s : State) : Accounted [.wdCnt] s (subWatchdog s) := by
  refine oneShot_accounted putWdCnt_writesCount (fun harmed n hn => ?_) (opWdogExpire_accounted s)
  unfold State.putWdCnt
  split
  · exact .inr ⟨harmed, hn.symm⟩
  · exact .inl ⟨rfl, id⟩

/-- What a gap tick can do (R78): one count down under its code, or a fault without it. -/
theorem opSerGap_cases (hf : s.fault = none) : opSerGap s = s.raise .counterRange ∨
    opSerGap s = { s with gapCnt := s.gapCnt - 1, trace := s.trace ++ [0x10] } := by
  unfold opSerGap
  cases hg : s.gapCnt with
  | zero => exact .inl rfl
  | succ n =>
    simp only [State.countDown, State.putGapCnt]
    split
    · exact .inr (State.andThen_of_noFault (by exact hf) _)
    · exact .inl rfl

theorem opSerStart_accounted (s : State) : Accounted [] s (opSerStart s) :=
  .of_code (c := 0x11) rfl fun row hc => by cases row <;> simp_all [Row.Kept, Row.writers, opSerStart]

/-- The completion inside an edge: the indices and the lines are the edge's rows too. -/
theorem opSerComplete_accounted (h : 0x12 ∈ s.trace) : Accounted [] s (opSerComplete s) :=
  .of_codes [0x12, 0x13] (fun c hc => List.mem_append_left _ hc) 
    (List.forall_mem_cons.mpr ⟨List.mem_append_left _ h, by simp [opSerComplete]⟩)
    fun row hc => by cases row <;> simp_all [Row.Kept, Row.writers, opSerComplete]

theorem putByteIdx_accounted (h : 0x12 ∈ s.trace) (v : Nat) : Accounted [] s (s.putByteIdx v) := by
  unfold State.putByteIdx
  split
  · exact .of_mem h rfl fun row hc => by cases row <;> simp_all [Row.Kept, Row.writers]
  · exact .raise _ s _

theorem putEdgeIdx_accounted (h : 0x12 ∈ s.trace) (v : Nat) : Accounted [] s (s.putEdgeIdx v) := by
  unfold State.putEdgeIdx
  split
  · exact .of_mem h rfl fun row hc => by cases row <;> simp_all [Row.Kept, Row.writers]
  · exact .raise _ s _

theorem edgeAdvance_accounted (h : 0x12 ∈ s.trace) (b e : Nat) : Accounted [] s (edgeAdvance b e s) := by
  unfold edgeAdvance
  split
  · split
    · exact opSerComplete_accounted h
    · have hbyte := putByteIdx_accounted h (b + 1)
      exact hbyte.andThen (timers' := []) (fun _ => putEdgeIdx_accounted (hbyte.trace _ h) 0) (by simp)
  · exact putEdgeIdx_accounted h (e + 1)

theorem edgeActions_accounted (s : State) (b e : Nat) :
    Accounted [] s (edgeAttention b e (edgeDataOut b e (edgeShift b e (edgeClock e (s.emit 0x12))))) := by
  rw [edge_actions]
  exact .of_code (c := 0x12) rfl fun row hc => by cases row <;> simp_all [Row.Kept, Row.writers]

theorem opSerEdge_accounted (s : State) : Accounted [] s (opSerEdge s) := by
  unfold opSerEdge
  split
  · refine (edgeActions_accounted s _ _).trans (edgeAdvance_accounted ?_ _ _) (by simp)
    rw [edge_actions]
    exact List.mem_append_right _ (List.mem_singleton_self _)
  · exact .raise _ s _

/-- A serial tick runs an operation under its code, or ends in a fault (R77). -/
theorem opSerTick_accounted (hf : s.fault = none) : Accounted [] s (opSerTick s) ∧
    ((opSerTick s).fault = none → (opSerTick s).ran Row.scCnt.writers) := by
  unfold opSerTick
  cases s.serPhase with
  | gap =>
    simp only []
    split
    · rcases opSerGap_cases hf with e | e <;> rw [e]
      · exact ⟨.raise _ s _, nofun⟩
      · exact ⟨.of_code (c := 0x10) rfl fun row hc => by cases row <;> simp_all [Row.Kept, Row.writers], fun _ =>
          State.ran_of_mem (c := 0x10) (by decide) (by simp)⟩
    · exact ⟨opSerStart_accounted s, fun _ => State.ran_of_mem (c := 0x11) (by decide) (by simp [opSerStart])⟩
  | active =>
    refine ⟨opSerEdge_accounted s, fun hnone => State.ran_of_mem (c := 0x12) (by decide) ?_⟩
    simp only [opSerEdge] at hnone ⊢
    split at hnone
    · next hrange =>
      rw [if_pos hrange]
      exact edgeAdvance_edge_mem_trace _ _ s
    · cases hnone

theorem putScCnt_writesCount : WritesCount .scCnt State.putScCnt where
  trace := fun s v => by unfold State.putScCnt; split <;> rfl
  others := fun s v row hrow => by unfold State.putScCnt; split <;> cases row <;> simp_all [Row.Kept]

theorem subSerialTimer_accounted (hf : s.fault = none) : Accounted [.scCnt] s (subSerialTimer s) := by
  obtain ⟨htick, hran⟩ := opSerTick_accounted hf
  refine periodicTimer_accounted _ putScCnt_writesCount (fun hen n hn => ?_) htick hran
  unfold State.putScCnt
  split
  · simp only [Bool.and_eq_true, Bool.not_eq_true'] at hen
    exact .inr ⟨hen.1, hen.2, hn.symm⟩
  · exact .inl ⟨rfl, id⟩

/-! ### The multiplexed engine -/

theorem opPollAdvance_accounted (hf : s.fault = none) (hp : s.phase ≤ 6) :
    Accounted [] s (opPollAdvance s) ∧ 0x01 ∈ (opPollAdvance s).trace := by
  rw [opPollAdvance, State.putPhase_of_le (Nat.succ_le_succ (hp.trans (by decide))),
    State.andThen_of_noFault (by exact hf)]
  exact ⟨.of_code (c := 0x01) rfl fun row hc => by cases row <;> simp_all [Row.Kept, Row.writers], by simp⟩

theorem opPollFinish_accounted (s : State) : Accounted [] s (opPollFinish s) :=
  .of_code (c := 0x02) rfl fun row hc => by cases row <;> simp_all [Row.Kept, Row.writers, opPollFinish]

theorem opPollRestart_accounted (s : State) : Accounted [] s (opPollRestart s) :=
  .of_code (c := 0x03) rfl fun row hc => by cases row <;> simp_all [Row.Kept, Row.writers, opPollRestart]

/-- A poll tick runs an operation under its code, or ends in a fault (41_mux_engine.md R68). -/
theorem opPollTick_accounted (hf : s.fault = none) : Accounted [] s (opPollTick s) ∧
    ((opPollTick s).fault = none → (opPollTick s).ran Row.ptCnt.writers) := by
  unfold opPollTick
  split
  · next hp =>
    obtain ⟨hadvance, hmem⟩ := opPollAdvance_accounted hf hp
    exact ⟨hadvance, fun _ => State.ran_of_mem (c := 0x01) (by decide) hmem⟩
  · split
    · exact ⟨opPollFinish_accounted s, fun _ => State.ran_of_mem (c := 0x02) (by decide) (by simp [opPollFinish])⟩
    · split
      · exact ⟨opPollRestart_accounted s, fun _ =>
          State.ran_of_mem (c := 0x03) (by decide) (by simp [opPollRestart])⟩
      · exact ⟨.raise _ s _, nofun⟩

theorem putPtCnt_writesCount : WritesCount .ptCnt State.putPtCnt where
  trace := fun s v => by unfold State.putPtCnt; split <;> rfl
  others := fun s v row hrow => by unfold State.putPtCnt; split <;> cases row <;> simp_all [Row.Kept]

theorem subPollTimer_accounted (hf : s.fault = none) : Accounted [.ptCnt] s (subPollTimer s) := by
  obtain ⟨htick, hran⟩ := opPollTick_accounted hf
  refine periodicTimer_accounted _ putPtCnt_writesCount (fun hen n hn => ?_) htick hran
  unfold State.putPtCnt
  split
  · exact .inr ⟨hen, hn.symm⟩
  · exact .inl ⟨rfl, id⟩

theorem opSampleLatch_accounted (s : State) : Accounted [] s (opSampleLatch s) := by
  unfold opSampleLatch
  split
  · exact .of_code (c := 0x04) rfl fun row hc => by
      cases row <;> simp_all [Row.Kept, Row.writers, State.latchRaw]
  · exact .raise _ s _

theorem putStCnt_writesCount : WritesCount .stCnt State.putStCnt where
  trace := fun s v => by unfold State.putStCnt; split <;> rfl
  others := fun s v row hrow => by unfold State.putStCnt; split <;> cases row <;> simp_all [Row.Kept]

theorem subSettle_accounted (s : State) : Accounted [.stCnt] s (subSettle s) := by
  refine oneShot_accounted putStCnt_writesCount (fun hneed n hn => ?_) (opSampleLatch_accounted s)
  unfold State.putStCnt
  split
  · exact .inr ⟨hneed, hn.symm⟩
  · exact .inl ⟨rfl, id⟩

/-! ### The arbitrator, the builds and the transmit -/

theorem opArbitrate_accounted (s : State) : Accounted [] s (opArbitrate s) := by
  unfold opArbitrate
  split
  · rw [selectSerial_eq]
    exact .of_code (c := 0x30) rfl fun row hc => by cases row <;> simp_all [Row.Kept, Row.writers]
  · exact .of_code (c := 0x30) rfl fun row hc => by cases row <;> simp_all [Row.Kept, Row.writers, selectMux]

theorem subArbitrate_accounted (s : State) : Accounted [] s (subArbitrate s) := by
  unfold subArbitrate
  cases s.mode with
  | undecided =>
    simp only []
    split
    · exact opArbitrate_accounted s
    · exact .refl _ s
  | mux | serial => exact .refl _ s
  | three => exact .raise _ s _

theorem opBuildMux_accounted (s : State) : Accounted [] s (opBuildMux s) := by
  rw [opBuildMux, State.build_eq]
  exact .of_code (c := 0x31) rfl fun row hc => by cases row <;> simp_all [Row.Kept, Row.writers]

theorem opBuildSer_accounted (s : State) : Accounted [] s (opBuildSer s) := by
  rw [opBuildSer, State.build_eq]
  exact .of_code (c := 0x32) rfl fun row hc => by cases row <;> simp_all [Row.Kept, Row.writers]

theorem subBuild_accounted (s : State) : Accounted [] s (subBuild s) := by
  unfold subBuild
  split
  · cases s.mode with
    | mux => exact opBuildMux_accounted s
    | serial => exact opBuildSer_accounted s
    | undecided | three => exact .refl _ s
  · exact .refl _ s

theorem subTransmit_accounted (s : State) : Accounted [] s (subTransmit s) := by
  unfold subTransmit
  split
  · exact .of_code (c := 0x33) rfl fun row hc => by cases row <;> simp_all [Row.Kept, Row.writers, opTransmit]
  · exact .refl _ s

/-! ### The whole step -/

/-- The rows whose counts the sub-step counts down (40_timing_service.md R61 to R65). -/
def SubStep.timers : SubStep → List Row
  | .idleTimer => [.itCnt]
  | .watchdog => [.wdCnt]
  | .serialTimer => [.scCnt]
  | .pollTimer => [.ptCnt]
  | .settle => [.stCnt]
  | .request | .arbitrate | .build | .transmit => []

theorem SubStep.run_accounted (x : SubStep) (hf : s.fault = none) : Accounted x.timers s (x.run s) := by
  cases x with
  | request => exact subRequest_accounted s
  | idleTimer => exact subIdleTimer_accounted s
  | watchdog => exact subWatchdog_accounted s
  | serialTimer => exact subSerialTimer_accounted hf
  | pollTimer => exact subPollTimer_accounted hf
  | settle => exact subSettle_accounted s
  | arbitrate => exact subArbitrate_accounted s
  | build => exact subBuild_accounted s
  | transmit => exact subTransmit_accounted s

theorem runSubSteps_accounted {xs : List SubStep} (hxs : (xs.flatMap SubStep.timers).Nodup) (s : State) :
    Accounted (xs.flatMap SubStep.timers) s (runSubSteps xs s) := by
  induction xs generalizing s with
  | nil => exact .refl _ s
  | cons x xs ih =>
    rw [List.flatMap_cons] at hxs ⊢
    have hfirst : Accounted x.timers s (s.andThen x.run) :=
      (Accounted.refl [] s).andThen (fun hf => x.run_accounted hf) (by simp)
    exact hfirst.trans (ih hxs.of_append_right _) fun row h h' => List.disjoint_of_nodup_append hxs h h'

/-- In a whole step each row is kept, or written under a code of its writers, or counted down by its timer. -/
theorem opStep_row (row : Row) (stim : Stim) (hf : s.fault = none) :
    row.Kept (s.beginStep stim) (opStep stim s) ∨ (opStep stim s).ran row.writers ∨
    row.CountedDown (s.beginStep stim) (opStep stim s) := by
  rw [opStep_eq_runSubSteps stim hf]
  exact ((runSubSteps_accounted (by decide) (s.beginStep stim)).rows row).imp_right (Or.imp_right And.right)

/-- A row that is not kept and has no countdown was written. -/
theorem written_of_not_kept {kept written : Prop} (h : kept ∨ written ∨ False) (hk : ¬ kept) : written :=
  (h.resolve_left hk).resolve_right id

/-- A flag that became true where it was false was not kept. -/
theorem written_of_flag {a b : Bool} {written : Prop} (h : (b = true → a = true) ∨ written ∨ False) (ha : a = false)
    (hb : b = true) : written :=
  written_of_not_kept h fun hk => by simp [ha, hb] at hk

/-- Settles O42: each sub-step accounts for every row of the table, and so does the step. -/
theorem everyElementHasItsWriter : Obligations.EveryElementHasItsWriter := by
  unfold Obligations.EveryElementHasItsWriter
  intro s t st e
  rw [exec_step] at e
  obtain ⟨hf, ht⟩ := runOp_eq_next.mp e
  have hrow := fun row => opStep_row row st hf
  rw [← ht] at hrow
  have hselection : (t.mode ≠ s.mode ∨ t.ptEn ≠ s.ptEn ∨ t.serEn ≠ s.serEn ∨ t.selOe ≠ s.selOe ∨ t.serOe ≠ s.serOe) →
      ¬ Row.selection.Kept (s.beginStep st) t := by
    rintro hne ⟨hmode, hpt, hser, hsel, hoe⟩
    simp [hmode, hpt, hser, hsel, hoe] at hne
  exact ⟨
    written_of_not_kept (hrow .raw), written_of_not_kept (hrow .phase), written_of_not_kept (hrow .sel),
    written_of_flag (hrow .needSampleSet), fun hs ht => written_of_flag (hrow .needSampleClear) ht hs,
    fun hne => State.ran_or ((hrow .stCnt).resolve_left fun hk => hne hk.1), written_of_not_kept (hrow .ptPeriod),
    fun hne => State.ran_or ((hrow .ptCnt).resolve_left fun hk => hne hk.1),
    written_of_not_kept (hrow .acc), fun hne => written_of_not_kept (hrow .indices) (not_and_or.mpr hne),
    written_of_not_kept (hrow .serPhase), written_of_not_kept (hrow .gapCnt), written_of_not_kept (hrow .att),
    fun hne => written_of_not_kept (hrow .clkCmd) (not_and_or.mpr hne),
    written_of_flag (hrow .wdArmedSet), fun hs ht => written_of_flag (hrow .wdArmedClear) ht hs,
    fun hne => State.ran_or ((hrow .wdCnt).resolve_left fun hk => hne hk.1),
    fun hne => State.ran_or ((hrow .scCnt).resolve_left fun hk => hne hk.1),
    written_of_flag (hrow .completeSet), fun hs ht => written_of_flag (hrow .completeClear) ht hs,
    written_of_not_kept (hrow .rpt), written_of_flag (hrow .pendingSet),
    fun hne => written_of_not_kept (hrow .selection) (hselection hne),
    fun hs ht => written_of_flag (hrow .pendingClear) ht hs, written_of_not_kept (hrow .idleCnt),
    written_of_flag (hrow .elapsedSet), fun hs ht => written_of_flag (hrow .elapsedClear) ht hs,
    fun hne => State.ran_or ((hrow .itCnt).resolve_left hne), written_of_not_kept (hrow .idleRate),
    (hrow .params).resolve_right fun h => h.elim id id⟩

end Sys2Proof.Machine
end

section
/-! Proofs of the statements of 30_encoding.md: the stimulus word and its request map, the fields that a step ignores,
the order of the sub-steps and of their codes, the serial edge, the triggers, and the pseudo-statements of a script. -/

namespace Sys2Proof.Machine

variable {s t : State}

/-! ## The stimulus word (R47) -/

/-- The decoder reads back the fields that the encoder wrote. -/
theorem decodeStim_encodeStim (st : Stim) : decodeStim (encodeStim st) = st := by
  simp only [decodeStim, encodeStim, BitVec.getLsbD_append, BitVec.extractLsb'_append_eq_of_le,
    BitVec.extractLsb'_append_eq_right, Nat.reduceLeDiff, Nat.reduceSub]
  simp

theorem rstBit_encodeStim (st : Stim) : rstBit (encodeStim st) = false := by
  simp only [rstBit, encodeStim, BitVec.getLsbD_append]
  simp

theorem decodeTop_encodeStim (st : Stim) : decodeTop (encodeStim st) = .step st := by
  simp [decodeTop, rstBit_encodeStim, decodeStim_encodeStim]

theorem ofBool_getLsbD (w : StimWord) (i : Nat) : BitVec.ofBool (w.getLsbD i) = w.extractLsb' i 1 := by
  refine BitVec.eq_of_getLsbD_eq fun k hk => ?_
  obtain rfl : k = 0 := by omega
  simp

/-- A word is its fields, RST and the reserved bits. -/
theorem append_fields (w : StimWord) :
    w.extractLsb' 56 8 ++ w.extractLsb' 40 16 ++ w.extractLsb' 32 8 ++ w.extractLsb' 24 8 ++ w.extractLsb' 17 7 ++
      w.extractLsb' 16 1 ++ w.extractLsb' 15 1 ++ w.extractLsb' 14 1 ++ w.extractLsb' 13 1 ++ w.extractLsb' 12 1 ++
      w.extractLsb' 6 6 ++ w.extractLsb' 0 6 = w := by
  repeat rw [BitVec.extractLsb'_append_extractLsb'_eq_extractLsb' (by decide)]
  exact BitVec.extractLsb'_eq_self

/-- The encoder gives back a word with RST = 0 whose reserved bits are 0 (R50). -/
theorem encodeStim_decodeStim {w : StimWord} (hrst : rstBit w = false) (hlow : w.extractLsb' 17 7 = 0)
    (hhigh : w.extractLsb' 56 8 = 0) : encodeStim (decodeStim w) = w := by
  have h15 : w.extractLsb' 15 1 = 0#1 := (ofBool_getLsbD w 15).symm.trans (congrArg BitVec.ofBool hrst)
  have hw := append_fields w
  rw [hhigh, hlow, h15] at hw
  simp only [encodeStim, decodeStim, ofBool_getLsbD]
  exact hw

/-! ## The request map (R48, R49) -/

/-- A word without RST and with a request is read as the request's row (log 14). -/
theorem decode_stim_of_request {w : StimWord} (hrst : w.getLsbD 15 = false) (hv : w.getLsbD 16 = true) :
    decode (.stim w) = .ok (decodeStim w).request.toInstr := by
  have hreqv : (decodeStim w).reqv = true := hv
  simp only [decode, decodeStimOperation, rstBit, hrst, hreqv, Bool.false_eq_true, if_false, if_true]

/-- A word without RST and without a request is read as a STEP. -/
theorem decode_stim_of_noRequest {w : StimWord} (hrst : w.getLsbD 15 = false) (hv : w.getLsbD 16 = false) :
    decode (.stim w) = .ok (.step (decodeStim w)) := by
  have hreqv : (decodeStim w).reqv = false := hv
  simp only [decode, decodeStimOperation, rstBit, hrst, hreqv, Bool.false_eq_true, if_false]

theorem honouredPair_eq_false_iff (rqt rq : Byte) : honouredPair rqt rq = false ↔
    ¬ (rqt = 0xA1 ∧ rq = 0x01) ∧ ¬ (rqt = 0xA1 ∧ rq = 0x02) ∧ ¬ (rqt = 0x21 ∧ rq = 0x0A) := by
  simp [honouredPair, and_assoc]

/-- The last row of the request map takes the pairs that no other row honours (R49). -/
theorem decodeRequest_of_not_honoured {rqt rq : Byte} (h : honouredPair rqt rq = false) (wval : BitVec 16) :
    decodeRequest rqt rq wval = .unhandled rqt rq := by
  obtain ⟨hreport, hidle, hset⟩ := (honouredPair_eq_false_iff rqt rq).mp h
  rw [decodeRequest, if_neg hreport, if_neg hidle, if_neg hset]

/-- The encoding of a request is read as the row of its pair. -/
theorem decode_requestStim (rqt rq rate : Byte) :
    decode (.stim (encodeStim (requestStim rqt rq rate))) = .ok (decodeRequest rqt rq (rate ++ 0#8)).toInstr := by
  have hv : (encodeStim (requestStim rqt rq rate)).getLsbD 16 = true :=
    congrArg Stim.reqv (decodeStim_encodeStim (requestStim rqt rq rate))
  rw [decode_stim_of_request (rstBit_encodeStim _) hv, decodeStim_encodeStim]
  rfl

/-- The operand of SET_IDLE is the high byte of WVAL (R48). -/
theorem idleOperand_append (rate low : Byte) : idleOperand (rate ++ low) = rate := BitVec.extractLsb'_append_eq_left

/-- Decode inverts encode: a STEP without a request by its fields, a request by its row, an internal operation by its
code. -/
theorem decode_encode {i : Instr} (hi : i.wellFormed = true) (hstep : ∀ st, i = .step st → st.reqv = false) :
    decode (encode i) = .ok i := by
  cases i with
  | step st =>
    have hst := decodeStim_encodeStim st
    have hv : (encodeStim st).getLsbD 16 = false := (congrArg Stim.reqv hst).trans (hstep st rfl)
    exact (decode_stim_of_noRequest (rstBit_encodeStim st) hv).trans (by rw [hst])
  | getReport | getIdle => exact decode_requestStim _ _ 0
  | setIdle rate =>
    exact (decode_requestStim 0x21 0x0A rate).trans (congrArg (Except.ok ∘ Instr.setIdle) (idleOperand_append rate 0))
  | reqUnhandled rqt rq =>
    have hpair : honouredPair rqt rq = false := by simpa [Instr.wellFormed] using hi
    exact (decode_requestStim rqt rq 0).trans (by rw [decodeRequest_of_not_honoured hpair]; rfl)
  | reset | idleTick | wdogExpire | serGap | serStart | serEdge | serComplete | pollAdvance | pollFinish | pollRestart
  | sampleLatch | arbitrate | buildMux | buildSer | transmit => rfl

/-- Settles O1: the decoder's two readings of an encoding. -/
theorem decodeInvertsEncode : Obligations.DecodeInvertsEncode := by
  unfold Obligations.DecodeInvertsEncode
  exact ⟨fun _ => decode_encode, decodeTop_encodeStim⟩

/-! ### Masks -/

/-- A field under a mask that keeps it whole. -/
theorem extractLsb'_and_of_allOnes (w : StimWord) {m : StimWord} {i n : Nat}
    (hm : m.extractLsb' i n = BitVec.allOnes n) :
    (w &&& m).extractLsb' i n = w.extractLsb' i n := by
  rw [BitVec.extractLsb'_and, hm, BitVec.and_allOnes]

/-- A field under a mask that clears it. -/
theorem extractLsb'_and_of_zero (w : StimWord) {m : StimWord} {i n : Nat} (hm : m.extractLsb' i n = 0#n) :
    (w &&& m).extractLsb' i n = 0#n := by
  rw [BitVec.extractLsb'_and, hm, BitVec.and_zero]

/-- Under the mask of the honoured rows a request's word is the match value of its pair (R49). -/
theorem and_requestMask {w : StimWord} (hv : w.getLsbD 16 = true) : w &&& 0x000000FFFF010000 =
    encodeStim (requestStim (w.extractLsb' 24 8) (w.extractLsb' 32 8) 0) := by
  have hfields : decodeStim (w &&& 0x000000FFFF010000) =
      requestStim (w.extractLsb' 24 8) (w.extractLsb' 32 8) 0 := by
    simp only [decodeStim, requestStim, Stim.mk.injEq]
    exact ⟨extractLsb'_and_of_zero w rfl, extractLsb'_and_of_zero w rfl, by simp, by simp, by simp, by simpa using hv,
      extractLsb'_and_of_allOnes w rfl, extractLsb'_and_of_allOnes w rfl, extractLsb'_and_of_zero w rfl⟩
  rw [← hfields, encodeStim_decodeStim (by simp [rstBit]) (extractLsb'_and_of_zero w rfl)
    (extractLsb'_and_of_zero w rfl)]

/-- A word matches an honoured row exactly when REQV is set and the pair is the row's (R49). -/
theorem and_requestMask_eq_iff (w : StimWord) (rqt rq : Byte) :
    w &&& 0x000000FFFF010000 = encodeStim (requestStim rqt rq 0) ↔
      w.getLsbD 16 = true ∧ w.extractLsb' 24 8 = rqt ∧ w.extractLsb' 32 8 = rq := by
  constructor
  · intro h
    have hfields := (congrArg decodeStim h).trans (decodeStim_encodeStim _)
    simp only [decodeStim, requestStim, Stim.mk.injEq] at hfields
    obtain ⟨-, -, -, -, -, hv, hrqt, hrq, -⟩ := hfields
    exact ⟨by simpa using hv, (extractLsb'_and_of_allOnes w rfl).symm.trans hrqt,
      (extractLsb'_and_of_allOnes w rfl).symm.trans hrq⟩
  · rintro ⟨hv, rfl, rfl⟩
    exact and_requestMask hv

/-- A word that matches an honoured row is read as that row. -/
theorem decode_stim_of_match {w : StimWord} {rqt rq : Byte} (hrst : w.getLsbD 15 = false)
    (h : w &&& 0x000000FFFF010000 = encodeStim (requestStim rqt rq 0)) :
    decode (.stim w) = .ok (decodeRequest rqt rq (w.extractLsb' 40 16)).toInstr := by
  obtain ⟨hv, rfl, rfl⟩ := (and_requestMask_eq_iff w rqt rq).mp h
  exact decode_stim_of_request hrst hv

/-- The operand of SET_IDLE in the word (R48). -/
theorem idleOperand_extractLsb' (w : StimWord) : idleOperand (w.extractLsb' 40 16) = w.extractLsb' 48 8 := by
  refine BitVec.eq_of_getLsbD_eq fun i hi => ?_
  have hlt : 8 + i < 16 := by omega
  simp [idleOperand, hi, hlt, ← Nat.add_assoc]

/-- Settles O4: a row's match value is the encoding of its pair, and its mask leaves REQV and the pair. -/
theorem requestMapMatchesMasks : Obligations.RequestMapMatchesMasks := by
  unfold Obligations.RequestMapMatchesMasks
  intro w hrst
  refine ⟨decode_stim_of_match (rqt := 0xA1) (rq := 0x01) hrst, decode_stim_of_match (rqt := 0xA1) (rq := 0x02) hrst,
    fun h => ?_, fun hbit hreport hidle hset => ?_, fun hbit => ?_⟩
  · rw [← idleOperand_extractLsb']
    exact decode_stim_of_match (rqt := 0x21) (rq := 0x0A) hrst h
  · have hv : w.getLsbD 16 = true := by simpa using congrArg (BitVec.getLsbD · 16) hbit
    have hother : ∀ {rqt rq}, w &&& 0x000000FFFF010000 ≠ encodeStim (requestStim rqt rq 0) →
        ¬ (w.extractLsb' 24 8 = rqt ∧ w.extractLsb' 32 8 = rq) :=
      fun hne hpair => hne ((and_requestMask_eq_iff w _ _).mpr ⟨hv, hpair⟩)
    have hpair := (honouredPair_eq_false_iff _ _).mpr ⟨hother (rqt := 0xA1) (rq := 0x01) hreport,
      hother (rqt := 0xA1) (rq := 0x02) hidle, hother (rqt := 0x21) (rq := 0x0A) hset⟩
    exact (decode_stim_of_request hrst hv).trans
      (congrArg (Except.ok ∘ Request.toInstr) (decodeRequest_of_not_honoured hpair _))
  · exact decode_stim_of_noRequest hrst (by simpa using congrArg (BitVec.getLsbD · 16) hbit)

/-! ## What a word's decoding ignores (R50, R51) -/

/-- A step takes its word and runs what the word decodes to. -/
theorem step_giveWord (w : StimWord) (s : State) : step (s.giveWord w) =
    if s.params.Legal then exec (decodeTop w) { s with seq := s.seq + 1 } else .refused .illegalParams := rfl

theorem step_giveWord_congr {w w' : StimWord} (h : decodeTop w = decodeTop w') (s : State) :
    step (s.giveWord w) = step (s.giveWord w') := by
  rw [step_giveWord, step_giveWord, h]

/-- The decoder reads the bits that are not reserved only. -/
theorem decodeStim_and_fields (w : StimWord) : decodeStim (w &&& 0x00FFFFFFFF01FFFF) = decodeStim w := by
  simp only [decodeStim, Stim.mk.injEq]
  exact ⟨extractLsb'_and_of_allOnes w rfl, extractLsb'_and_of_allOnes w rfl, by simp, by simp, by simp, by simp,
    extractLsb'_and_of_allOnes w rfl, extractLsb'_and_of_allOnes w rfl, extractLsb'_and_of_allOnes w rfl⟩

theorem rstBit_and_fields (w : StimWord) : rstBit (w &&& 0x00FFFFFFFF01FFFF) = rstBit w := by
  simp [rstBit]

/-- Settles O5: the fields and RST, all that either decoder reads, are the same in both words. -/
theorem reservedBitsChangeNothing : Obligations.ReservedBitsChangeNothing := by
  unfold Obligations.ReservedBitsChangeNothing
  intro w w' s h
  have hfields : decodeStim w = decodeStim w' := by rw [← decodeStim_and_fields, h, decodeStim_and_fields]
  have hrst : rstBit w = rstBit w' := by rw [← rstBit_and_fields, h, rstBit_and_fields]
  exact ⟨step_giveWord_congr (by rw [decodeTop, decodeTop, hfields, hrst]) s,
    by rw [decode, decode, decodeStimOperation, decodeStimOperation, hfields, hrst]⟩

/-! ## A step without a request (R51) -/

/-- S1 does nothing when REQV = 0. -/
theorem subRequest_of_noRequest (h : s.pins.reqv = false) : subRequest s = s := by
  simp [subRequest, h]

/-- The inputs with other request fields. -/
def withRequestFields (st : Stim) (rqt rq : Byte) (wval : BitVec 16) : Stim :=
  { st with rqt := rqt, rq := rq, wval := wval }

section NoRequest
variable (rqt rq : Byte) (wval : BitVec 16)

/-- S9 reads EPRDY and no request field. -/
theorem subTransmit_withRequestFields (s : State) :
    subTransmit (s.withPins (withRequestFields s.pins rqt rq wval)) =
      (subTransmit s).withPins (withRequestFields s.pins rqt rq wval) := by
  rw [subTransmit, subTransmit, ← ite_withPins]
  rfl

/-- Without a request no sub-step reads the request fields. -/
theorem SubStep.run_withRequestFields (x : SubStep) (h : s.pins.reqv = false) :
    x.run (s.withPins (withRequestFields s.pins rqt rq wval)) =
      (x.run s).withPins (withRequestFields s.pins rqt rq wval) := by
  cases x with
  | request =>
    show subRequest _ = (subRequest s).withPins _
    rw [subRequest_of_noRequest h]
    exact subRequest_of_noRequest h
  | idleTimer => exact subIdleTimer_withPins s
  | watchdog => exact subWatchdog_withPins s
  | serialTimer => exact subSerialTimer_withPins (.inl rfl) (.inl rfl)
  | pollTimer => exact subPollTimer_withPins s
  | settle => exact subSettle_withPins (.inl ⟨rfl, rfl⟩)
  | arbitrate => exact subArbitrate_withPins s
  | build => exact subBuild_withPins s
  | transmit => exact subTransmit_withRequestFields rqt rq wval s

theorem runSubSteps_withRequestFields (xs : List SubStep) (h : s.pins.reqv = false) :
    runSubSteps xs (s.withPins (withRequestFields s.pins rqt rq wval)) =
      (runSubSteps xs s).withPins (withRequestFields s.pins rqt rq wval) := by
  induction xs generalizing s with
  | nil => rfl
  | cons x xs ih =>
    have hpins : (s.andThen x.run).pins = s.pins := runSubSteps_pins [x] s
    have hfirst : (s.withPins (withRequestFields s.pins rqt rq wval)).andThen x.run =
        (s.andThen x.run).withPins (withRequestFields s.pins rqt rq wval) :=
      State.andThen_withPins fun _ => x.run_withRequestFields rqt rq wval h
    have hrest := ih (s := s.andThen x.run) (hpins ▸ h)
    rw [hpins] at hrest
    exact (congrArg (runSubSteps xs) hfirst).trans hrest

/-- A step without a request is the same under other request fields, but for the record of its inputs. -/
theorem opStep_withRequestFields {st : Stim} (hf : s.fault = none) (h : st.reqv = false) :
    opStep (withRequestFields st rqt rq wval) s = (opStep st s).withPins (withRequestFields st rqt rq wval) := by
  rw [opStep_eq_runSubSteps _ hf, opStep_eq_runSubSteps _ hf]
  exact runSubSteps_withRequestFields (s := s.beginStep st) rqt rq wval _ h

end NoRequest

/-- A step without a request answers nothing. -/
theorem opStep_resp_of_noRequest {st : Stim} (h : st.reqv = false) (s : State) : (opStep st s).resp = .none := by
  rw [opStep, afterRequest_resp, subRequest_of_noRequest (s := s.beginStep st) h, State.beginStep_resp]

/-- Settles O6: S1 alone reads the request fields, when REQV = 1, and a word with RST = 1 runs RESET, which has no
operand. -/
theorem fieldsWithoutRequestIgnored : Obligations.FieldsWithoutRequestIgnored := by
  unfold Obligations.FieldsWithoutRequestIgnored
  refine ⟨fun s => subRequest_of_noRequest, ?_, ?_⟩
  · intro s t st rqt rq wval h e
    rw [exec_step] at e
    obtain ⟨hf, rfl⟩ := runOp_eq_next.mp e
    refine ⟨opStep_resp_of_noRequest h s, ?_⟩
    rw [exec_step, runOp_of_noFault hf]
    exact congrArg _ (opStep_withRequestFields rqt rq wval hf h)
  · intro s w w' h h'
    exact step_giveWord_congr (by rw [decodeTop, decodeTop, rstBit, rstBit, if_pos h, if_pos h']) s

/-! ## The order of the sub-steps (R58) -/

theorem exec_request (r : Request) (s : State) : exec r.toInstr s = runOp (opRequest r) s := by
  cases r <;> rfl

theorem subRequest_of_request (h : s.pins.reqv = true) : subRequest s = opRequest s.pins.request s := if_pos h

/-- A request raises no fault. -/
theorem subRequest_fault (s : State) : (subRequest s).fault = s.fault :=
  SubStep.request.run_keeps (f := State.fault) (fun _ => rfl) s

/-- Settles O8: S1 leaves no fault, so STEP goes on to S2 to S9; under the invariant none of them meets one. -/
theorem stepRunsSubStepsInOrder : Obligations.StepRunsSubStepsInOrder := by
  unfold Obligations.StepRunsSubStepsInOrder
  intro s st hf
  exact ⟨subRequest (s.beginStep st), (subRequest_fault _).trans hf,
    fun h => subRequest_of_noRequest (s := s.beginStep st) h,
    fun h => by
      rw [exec_request, subRequest_of_request (s := s.beginStep st) h]
      exact runOp_of_noFault (s := s.beginStep st) hf _,
    runOp_of_noFault hf _,
    fun h => (afterRequest_of_mid (subRequest_mid (h.mid.beginStep st))).1⟩

/-! ## The order of the event codes (R52, R58)

`State.Ordered n` says that the codes emitted so far stand at rising places, none beyond n. An operation whose code has
a later place keeps the order, and each sub-step emits at most one code, or SER_EDGE with SER_COMPLETE. -/

/-- The trace lists codes of R52 at strictly rising places up to `n`. -/
def State.Ordered (n : Nat) (s : State) : Prop :=
  s.trace.Pairwise (fun a b => eventPlace a < eventPlace b) ∧ ∀ c ∈ s.trace, 0 < eventPlace c ∧ eventPlace c ≤ n

theorem State.Ordered.congr {n : Nat} (h : s.Ordered n) (e : t.trace = s.trace) : t.Ordered n := by
  rwa [State.Ordered, e]

theorem State.Ordered.mono {m n : Nat} (h : s.Ordered m) (hmn : m ≤ n) : s.Ordered n :=
  ⟨h.1, fun c hc => ⟨(h.2 c hc).1, (h.2 c hc).2.trans hmn⟩⟩

/-- One more code, of a later place. -/
theorem State.Ordered.code {m n : Nat} {c : Byte} (h : s.Ordered m) (e : t.trace = s.trace ++ [c])
    (hc : m < eventPlace c ∧ eventPlace c ≤ n) : t.Ordered n := by
  obtain ⟨hsorted, hplaces⟩ := h
  rw [State.Ordered, e]
  constructor
  · exact List.pairwise_append.mpr ⟨hsorted, List.pairwise_singleton _ _, fun a ha b hb =>
      List.mem_singleton.mp hb ▸ (hplaces a ha).2.trans_lt hc.1⟩
  · intro d hd
    rcases List.mem_append.mp hd with hd | hd
    · exact ⟨(hplaces d hd).1, (hplaces d hd).2.trans (hc.1.le.trans hc.2)⟩
    · obtain rfl := List.mem_singleton.mp hd
      exact ⟨Nat.zero_lt_of_lt hc.1, hc.2⟩

theorem periodicTimer_ordered {en : Bool} {cnt n : Nat} {put : State → Nat → State} {handler : State → State}
    (period : State → Nat) (hput : ∀ s v, (put s v).trace = s.trace) (hs : s.Ordered n)
    (hh : (handler s).Ordered n) :
    (periodicTimer en cnt put handler period s).Ordered n := by
  rcases periodicTimer_cases en cnt put handler period s with ⟨-, e⟩ | ⟨-, -, e⟩ | ⟨-, -, e⟩ <;> rw [e]
  · exact hs
  · exact hh.congr (State.andThen_keeps (f := State.trace) rfl fun t ht => (hput t _).trans ht)
  · exact hs.congr (State.countDown_keeps (f := State.trace) (fun _ _ => rfl) hput s cnt)

theorem oneShot_ordered {armed : Bool} {cnt last n : Nat} {put : State → Nat → State} {handler : State → State}
    (hput : ∀ s v, (put s v).trace = s.trace) (hs : s.Ordered n) (hh : (handler s).Ordered n) :
    (oneShot armed cnt last put handler s).Ordered n := by
  rcases oneShot_cases armed cnt last put handler s with ⟨-, e⟩ | ⟨-, -, e⟩ | ⟨-, -, e⟩ <;> rw [e]
  · exact hs
  · exact hh
  · exact hs.congr (State.countDown_keeps (f := State.trace) (fun _ _ => rfl) hput s cnt)

/-! ### The sub-steps -/

theorem subRequest_ordered (h : s.Ordered 0) : (subRequest s).Ordered 1 := by
  unfold subRequest
  split
  · cases s.pins.request with
    | getReport => exact h.code (c := 0x40) rfl (by decide)
    | getIdle => exact h.code (c := 0x41) rfl (by decide)
    | setIdle rate => exact h.code (c := 0x42) rfl (by decide)
    | unhandled rqt rq => exact h.code (c := 0x4F) rfl (by decide)
  · exact h.mono (by decide)

theorem State.countIdle_trace (s : State) : s.countIdle.trace = s.trace :=
  State.andThen_keeps (f := State.trace) (by unfold State.putIdleCnt; split <;> rfl) fun t ht => by split <;> exact ht

theorem opIdleTick_trace (s : State) : (opIdleTick s).trace = s.trace ++ [0x20] := by
  unfold opIdleTick
  split
  · exact State.countIdle_trace _
  · rfl

theorem subIdleTimer_ordered (h : s.Ordered 1) : (subIdleTimer s).Ordered 2 :=
  periodicTimer_ordered _ putItCnt_writesCount.trace (h.mono (by decide))
    (h.code (opIdleTick_trace s) (by decide))

theorem subWatchdog_ordered (h : s.Ordered 2) : (subWatchdog s).Ordered 3 :=
  oneShot_ordered putWdCnt_writesCount.trace (h.mono (by decide)) (h.code (c := 0x14) rfl (by decide))

/-- An edge emits SER_EDGE, then SER_COMPLETE at most (42_serial_engine.md R84, R85). -/
theorem opSerEdge_ordered (h : s.Ordered 3) : (opSerEdge s).Ordered 5 := by
  unfold opSerEdge
  split
  · rw [edge_actions]
    generalize hu : ({ s with trace := _, clk := _, acc := _, cmd := _, att := _ } : State) = u
    have hedge : u.Ordered 4 := h.code (c := 0x12) (hu ▸ rfl) (by decide)
    rcases edgeAdvance_trace s.byteIdx s.edgeIdx u with e | e
    · exact (hedge.congr e).mono (by decide)
    · exact hedge.code e (by decide)
  · exact (h.congr rfl).mono (by decide)

theorem opSerTick_ordered (hf : s.fault = none) (h : s.Ordered 3) : (opSerTick s).Ordered 5 := by
  unfold opSerTick
  cases s.serPhase with
  | gap =>
    simp only []
    split
    · rcases opSerGap_cases hf with e | e <;> rw [e]
      · exact (h.congr rfl).mono (by decide)
      · exact h.code (c := 0x10) rfl (by decide)
    · exact h.code (c := 0x11) rfl (by decide)
  | active => exact opSerEdge_ordered h

theorem subSerialTimer_ordered (hf : s.fault = none) (h : s.Ordered 3) : (subSerialTimer s).Ordered 5 :=
  periodicTimer_ordered _ putScCnt_writesCount.trace (h.mono (by decide)) (opSerTick_ordered hf h)

theorem opPollTick_ordered (hf : s.fault = none) (h : s.Ordered 5) : (opPollTick s).Ordered 6 := by
  unfold opPollTick
  split
  · next hp =>
    rw [opPollAdvance, State.putPhase_of_le (by omega), State.andThen_of_noFault (by exact hf)]
    exact h.code (c := 0x01) rfl (by decide)
  · split
    · exact h.code (c := 0x02) rfl (by decide)
    · split
      · exact h.code (c := 0x03) rfl (by decide)
      · exact (h.congr rfl).mono (by decide)

theorem subPollTimer_ordered (hf : s.fault = none) (h : s.Ordered 5) : (subPollTimer s).Ordered 6 :=
  periodicTimer_ordered _ putPtCnt_writesCount.trace (h.mono (by decide)) (opPollTick_ordered hf h)

theorem opSampleLatch_ordered (h : s.Ordered 6) : (opSampleLatch s).Ordered 7 := by
  unfold opSampleLatch
  split
  · exact h.code (c := 0x04) rfl (by decide)
  · exact (h.congr rfl).mono (by decide)

theorem subSettle_ordered (h : s.Ordered 6) : (subSettle s).Ordered 7 :=
  oneShot_ordered putStCnt_writesCount.trace (h.mono (by decide)) (opSampleLatch_ordered h)

theorem opArbitrate_trace (s : State) : (opArbitrate s).trace = s.trace ++ [0x30] := by
  unfold opArbitrate
  split <;> rfl

theorem subArbitrate_ordered (h : s.Ordered 7) : (subArbitrate s).Ordered 8 := by
  unfold subArbitrate
  cases s.mode with
  | undecided =>
    simp only []
    split
    · exact h.code (opArbitrate_trace s) (by decide)
    · exact h.mono (by decide)
  | mux | serial => exact h.mono (by decide)
  | three => exact (h.congr rfl).mono (by decide)

theorem State.build_trace (s : State) (r : Report) : (s.build r).trace = s.trace := by
  rw [State.build_eq]

theorem subBuild_ordered (h : s.Ordered 8) : (subBuild s).Ordered 9 := by
  unfold subBuild
  split
  · cases s.mode with
    | mux => exact (h.congr (s.build_trace s.muxReport)).code (c := 0x31) rfl (by decide)
    | serial => exact (h.congr (s.build_trace s.serReport)).code (c := 0x32) rfl (by decide)
    | undecided | three => exact h.mono (by decide)
  · exact h.mono (by decide)

theorem subTransmit_ordered (h : s.Ordered 9) : (subTransmit s).Ordered 10 := by
  unfold subTransmit
  split
  · exact h.code (c := 0x33) rfl (by decide)
  · exact h.mono (by decide)

/-! ### The whole step -/

/-- A fault ends the step and keeps the order. -/
theorem State.Ordered.andThen {m n : Nat} {f : State → State} (h : s.Ordered m) (hmn : m ≤ n)
    (hf : s.fault = none → (f s).Ordered n) : (s.andThen f).Ordered n := by
  rcases s.andThen_cases f with ⟨hnone, e⟩ | ⟨r, -, e⟩ <;> rw [e]
  · exact hf hnone
  · exact h.mono hmn

theorem afterRequest_ordered (h : s.Ordered 1) : (afterRequest s).Ordered 10 := by
  have hidle := h.andThen (by decide) fun _ => subIdleTimer_ordered h
  have hwatchdog := hidle.andThen (by decide) fun _ => subWatchdog_ordered hidle
  have hserial := hwatchdog.andThen (by decide) fun hf => subSerialTimer_ordered hf hwatchdog
  have hpoll := hserial.andThen (by decide) fun hf => subPollTimer_ordered hf hserial
  have hsettle := hpoll.andThen (by decide) fun _ => subSettle_ordered hpoll
  have harbitrate := hsettle.andThen (by decide) fun _ => subArbitrate_ordered hsettle
  have hbuild := harbitrate.andThen (by decide) fun _ => subBuild_ordered harbitrate
  exact hbuild.andThen (by decide) fun _ => subTransmit_ordered hbuild

/-- Settles O14: the trace starts empty, and each sub-step adds codes of its own places only. -/
theorem eventsFollowSubStepOrder : Obligations.EventsFollowSubStepOrder := by
  unfold Obligations.EventsFollowSubStepOrder
  intro s t st e
  rw [exec_step] at e
  obtain ⟨-, rfl⟩ := runOp_eq_next.mp e
  have hstart : (s.beginStep st).Ordered 0 := ⟨.nil, nofun⟩
  obtain ⟨hsorted, hplaces⟩ := afterRequest_ordered (subRequest_ordered hstart)
  exact ⟨hsorted, fun c hc => (hplaces c hc).1⟩

/-! ## The serial edge (R57, 42_serial_engine.md R80 to R84) -/

/-- The bit that a shift brings in stands at bit 7. -/
theorem shiftIn_eq (v : Byte) (dat : Bool) : shiftIn v dat = (v >>> 1) ||| (if dat then 0x80 else 0x00) := by
  cases dat <;> rfl

theorem edgeAcc_of_slot (s : State) {b e : Nat} (he : e < 16 ∧ e % 2 = 1) (hb : 3 ≤ b ∧ b ≤ 8) :
    edgeAcc b e s = s.acc.set (b - 3) (shiftIn s.acc[b - 3] s.pins.dat) := by
  rw [edgeAcc, if_pos he, accSlot_of_mem hb]
  rfl

theorem edgeAcc_of_not (s : State) {b e : Nat} (h : ¬ (e < 16 ∧ e % 2 = 1 ∧ 3 ≤ b ∧ b ≤ 8)) :
    edgeAcc b e s = s.acc := by
  unfold edgeAcc
  split
  · next he => rw [accSlot_of_not fun hb => h ⟨he.1, he.2, hb⟩]
  · rfl

/-- A rising edge shifts the slot of its byte and no other (R81, R88). -/
theorem edgeAcc_getElem (s : State) {b : Nat} (hb : b ≤ 8) (e : Nat) (i : Fin 6) : (edgeAcc b e s)[i] =
    if e < 16 ∧ e % 2 = 1 ∧ b = i.val + 3 then shiftIn s.acc[i] s.pins.dat else s.acc[i] := by
  by_cases hedge : e < 16 ∧ e % 2 = 1 ∧ 3 ≤ b ∧ b ≤ 8
  · obtain ⟨hlow, hodd, hslot⟩ := hedge
    have hi : b = i.val + 3 ↔ b - 3 = i.val := by omega
    simp only [edgeAcc_of_slot s ⟨hlow, hodd⟩ hslot, Fin.getElem_fin, Vector.getElem_set, hlow, hodd, true_and, hi]
    split
    · next h => simp only [h]
    · rfl
  · rw [edgeAcc_of_not s hedge, if_neg (by omega)]

/-- The nine command bytes (R57, R87). -/
theorem cmdBit_eq {b : Nat} (hb : b ≤ 8) (k : Nat) : cmdBit b k =
    (([0x01, 0x42, 0xFF, 0xFF, 0xFF, 0xFF, 0xFF, 0xFF, 0xFF] : List Byte).getD b 0).getLsbD k := by
  interval_cases b <;> rfl

/-- The advance to the next edge or the next byte (R84). -/
theorem edgeAdvance_of_not_last (hf : s.fault = none) {b e : Nat} (hb : b ≤ 8) (he : e < s.params.eByte)
    (hlast : ¬ (b = 8 ∧ e + 1 = s.params.eByte)) (hbs : s.byteIdx = b) : edgeAdvance b e s =
    { s with
      byteIdx := if e + 1 = s.params.eByte then b + 1 else b
      edgeIdx := if e + 1 = s.params.eByte then 0 else e + 1 } := by
  by_cases hend : e + 1 = s.params.eByte
  · rw [edgeAdvance_of_byte hf (by omega) hend, if_pos hend, if_pos hend]
  · rw [edgeAdvance_of_edge b (by omega), if_neg hend, if_neg hend, ← hbs]

/-- SER_EDGE inside a transaction as one update (R80 to R84). -/
theorem opSerEdge_of_not_last (hf : s.fault = none) (hb : s.byteIdx ≤ 8) (he : s.edgeIdx < s.params.eByte)
    (hlast : ¬ (s.byteIdx = 8 ∧ s.edgeIdx + 1 = s.params.eByte)) : opSerEdge s =
    { s with
      trace := s.trace ++ [0x12]
      clk := if s.edgeIdx < 16 then s.edgeIdx % 2 == 1 else s.clk
      acc := edgeAcc s.byteIdx s.edgeIdx s
      cmd := if s.edgeIdx < 16 ∧ s.edgeIdx % 2 = 0 then cmdBit s.byteIdx (s.edgeIdx / 2)
        else if s.edgeIdx = 16 then true else s.cmd
      att := if s.byteIdx = 8 ∧ s.edgeIdx = 17 then true else s.att
      byteIdx := if s.edgeIdx + 1 = s.params.eByte then s.byteIdx + 1 else s.byteIdx
      edgeIdx := if s.edgeIdx + 1 = s.params.eByte then 0 else s.edgeIdx + 1 } := by
  unfold opSerEdge
  rw [if_pos ⟨hb, he⟩, edge_actions]
  exact edgeAdvance_of_not_last (by exact hf) hb (by exact he) (by exact hlast) rfl

/-- Settles O21: the four actions of an edge, then its advance to the next edge or byte. -/
theorem serialEdgeActsAndAdvances : Obligations.SerialEdgeActsAndAdvances := by
  unfold Obligations.SerialEdgeActsAndAdvances
  intro s hf hb he hlast
  refine ⟨opSerEdge s, runOp_of_noFault hf _, ?_⟩
  rw [opSerEdge_of_not_last hf hb he hlast]
  refine ⟨rfl, rfl, fun i => ?_, ?_, rfl, rfl, rfl⟩
  · rw [← shiftIn_eq]
    exact edgeAcc_getElem s hb _ i
  · rw [← cmdBit_eq hb]

/-! ## Words and event codes written out (R47, R49, R52) -/

/-- Settles O2: each word runs through the decoder. -/
theorem specWordsDecode : Obligations.SpecWordsDecode := by
  unfold Obligations.SpecWordsDecode
  exact ⟨by decide, by decide, by decide, by decide, by decide, by decide⟩

/-- In a table without double keys a key finds exactly the values that stand beside it. -/
theorem lookup_eq_some_iff_mem {α β : Type} [DecidableEq α] {rows : List (α × β)} (h : (rows.map Prod.fst).Nodup)
    (a : α) (b : β) : rows.lookup a = some b ↔ (a, b) ∈ rows := by
  induction rows with
  | nil => simp
  | cons row rows ih =>
    obtain ⟨key, value⟩ := row
    rw [List.map_cons, List.nodup_cons] at h
    have ih := ih h.2
    by_cases hkey : a = key
    · subst hkey
      have hnot : (a, b) ∉ rows := fun hmem => h.1 (List.mem_map.mpr ⟨_, hmem, rfl⟩)
      simp [hnot, eq_comm]
    · simp [List.lookup_cons, beq_false_of_ne hkey, hkey, ih]

theorem decodeEvent_eq_ok_iff (c : Byte) (i : Instr) : decodeEvent c = .ok i ↔ eventRows.lookup c = some i := by
  unfold decodeEvent
  cases eventRows.lookup c <;> simp

/-- Settles O3: the rows of format EVT have distinct codes. -/
theorem eventCodesNameTheirOperations : Obligations.EventCodesNameTheirOperations := by
  unfold Obligations.EventCodesNameTheirOperations
  intro c i
  exact (decodeEvent_eq_ok_iff c i).trans (lookup_eq_some_iff_mem (by decide) c i)

/-! ## The triggers (R52, R58, R62, R65) -/

theorem oneShot_of_disarmed {armed : Bool} (h : armed = false) (cnt last : Nat) (put : State → Nat → State)
    (handler : State → State) (s : State) : oneShot armed cnt last put handler s = s := by
  rw [oneShot, if_neg (ne_true_of_eq_false h)]

theorem oneShot_of_last {armed : Bool} {cnt last : Nat} (h : armed = true) (hcnt : cnt = last)
    (put : State → Nat → State) (handler : State → State) (s : State) :
    oneShot armed cnt last put handler s = handler s := by
  rw [oneShot, if_pos h, if_pos hcnt]

theorem oneShot_of_counting {armed : Bool} {cnt last : Nat} (h : armed = true) (hcnt : last < cnt)
    (put : State → Nat → State) (handler : State → State) (s : State) :
    oneShot armed cnt last put handler s = put s (cnt - 1) := by
  rw [oneShot, if_pos h, if_neg hcnt.ne', State.countDown_of_pos _ (Nat.one_le_of_lt hcnt)]

theorem subArbitrate_of_complete (h : s.mode = .undecided ∧ s.sampleComplete = true) :
    subArbitrate s = opArbitrate s := by
  simp only [subArbitrate, h.1, h.2, if_true]

/-- S7 does nothing but where ARBITRATE is due, and where the mode is out of its range (10_state.md R26). -/
theorem subArbitrate_of_not_due (hm : s.mode ≠ .three) (h : ¬ (s.mode = .undecided ∧ s.sampleComplete = true)) :
    subArbitrate s = s := by
  unfold subArbitrate
  cases hmode : s.mode with
  | undecided => exact if_neg fun hc => h ⟨hmode, hc⟩
  | mux | serial => rfl
  | three => exact absurd hmode hm

theorem subBuild_of_mux (h : s.sampleComplete = true ∧ s.mode = .mux) : subBuild s = opBuildMux s := by
  simp only [subBuild, h.1, h.2, if_true]

theorem subBuild_of_serial (h : s.sampleComplete = true ∧ s.mode = .serial) : subBuild s = opBuildSer s := by
  simp only [subBuild, h.1, h.2, if_true]

theorem subBuild_of_not_due (h : s.sampleComplete = false ∨ s.mode = .undecided) : subBuild s = s := by
  rcases h with hc | hm
  · exact if_neg (ne_true_of_eq_false hc)
  · simp only [subBuild, hm, ite_self]

/-- Settles O13: a one-shot by its three cases, S7 to S9 by their conditions. -/
theorem triggersSelectTheOperations : Obligations.TriggersSelectTheOperations := by
  unfold Obligations.TriggersSelectTheOperations
  intro s hf hr hm
  have hwd := hr.wdCnt
  have hst := hr.stCnt
  have hop : ∀ {f g : State → State}, g s = f s → runOp f s = .next (g s) := fun e => e ▸ runOp_of_noFault hf _
  exact ⟨fun ha => oneShot_of_disarmed ha _ _ _ _ s,
    fun ha hc => hop (oneShot_of_last ha hc _ _ s),
    fun ha hc => (oneShot_of_counting ha hc _ _ s).trans (State.putWdCnt_of_le (by omega)),
    fun hn => oneShot_of_disarmed hn _ _ _ _ s,
    fun hn hc => hop (oneShot_of_last hn hc _ _ s),
    fun hn hc => (oneShot_of_counting hn hc _ _ s).trans (State.putStCnt_of_le (by omega)),
    fun h => hop (subArbitrate_of_complete h),
    subArbitrate_of_not_due hm,
    fun h => hop (subBuild_of_mux h),
    fun h => hop (subBuild_of_serial h),
    subBuild_of_not_due,
    fun h => hop (if_pos h),
    fun h => if_neg h⟩

/-! ## The pseudo-statements of a script (R54, R55) -/

/-- One more line of a port at its low level (10_state.md R32). -/
def lowerLine (l : Lines) (i : Fin 6) : Lines := l &&& ~~~ (1#6 <<< i.val)

theorem lowerLine_getLsbD (l : Lines) (i k : Fin 6) :
    (lowerLine l i).getLsbD k = (l.getLsbD k && !decide (k = i)) := by
  have hbit : (1#6 <<< i.val).getLsbD k = decide (k = i) := by revert i k; decide
  rw [lowerLine, BitVec.getLsbD_and, BitVec.getLsbD_not, hbit, decide_eq_true k.isLt, Bool.true_and]

theorem foldl_lowerLine_getLsbD (pressed : List (Fin 6)) (l : Lines) (k : Fin 6) :
    (pressed.foldl lowerLine l).getLsbD k = (l.getLsbD k && !pressed.contains k) := by
  induction pressed generalizing l with
  | nil => simp
  | cons i pressed ih =>
    rw [List.foldl_cons, ih, lowerLine_getLsbD, List.contains_cons, Bool.not_or, Bool.and_assoc]
    rfl

/-- PAD holds exactly the named lines low (R55). -/
theorem padLines_getLsbD (pressed : List (Fin 6)) (k : Fin 6) :
    (padLines pressed).getLsbD k = !pressed.contains k := by
  have hhigh : (0x3F : Lines).getLsbD k = true := by revert k; decide
  exact (foldl_lowerLine_getLsbD pressed 0x3F k).trans (by rw [hhigh, Bool.true_and])

theorem runStmt_set_eq_ok_iff {fields : List (ScriptField × Nat)} {env env' : ScriptEnv} :
    runStmt (.set fields) env s = .ok (env', s) ↔ ScriptEnv.setFields fields env = .ok env' := by
  simp only [runStmt]
  cases ScriptEnv.setFields fields env <;> simp

/-- A value that fits sets its field. -/
theorem runStmt_set_one {f : ScriptField} {v : Nat} {env env' : ScriptEnv} (h : env.setField f v = .ok env')
    (s : State) : runStmt (.set [(f, v)]) env s = .ok (env', s) :=
  runStmt_set_eq_ok_iff.mpr (by simp only [ScriptEnv.setFields, h])

theorem setField_lines0 (env : ScriptEnv) (l : Lines) :
    env.setField .lines0 l.toNat = .ok { env with lines0 := l } := by
  simp [ScriptEnv.setField, l.isLt]

theorem setField_lines1 (env : ScriptEnv) (l : Lines) :
    env.setField .lines1 l.toNat = .ok { env with lines1 := l } := by
  simp [ScriptEnv.setField, l.isLt]

theorem setField_dat (env : ScriptEnv) (level : Bool) :
    env.setField .dat level.toNat = .ok { env with dat := level, serpad := none } := by
  cases level <;> rfl

/-- Only a set of `dat` ends SERPAD (R55). -/
theorem setField_serpad {f : ScriptField} {v : Nat} {env env' : ScriptEnv} (hf : f ≠ .dat)
    (e : env.setField f v = .ok env') : env'.serpad = env.serpad := by
  cases f with
  | dat => exact absurd rfl hf
  | lines0 | lines1 | epready | hold =>
    simp only [ScriptEnv.setField] at e
    split at e
    · cases e; rfl
    · cases e

theorem setFields_serpad {fields : List (ScriptField × Nat)} {env env' : ScriptEnv}
    (hdat : ∀ v, (ScriptField.dat, v) ∉ fields) (e : ScriptEnv.setFields fields env = .ok env') :
    env'.serpad = env.serpad := by
  induction fields generalizing env with
  | nil => cases e; rfl
  | cons field fields ih =>
    obtain ⟨f, v⟩ := field
    have hf : f ≠ .dat := fun h => hdat v (h ▸ List.mem_cons_self)
    cases hset : env.setField f v with
    | error err => simp [ScriptEnv.setFields, hset] at e
    | ok mid =>
      simp only [ScriptEnv.setFields, hset] at e
      exact (ih (fun w hw => hdat w (List.mem_cons_of_mem _ hw)) e).trans (setField_serpad hf hset)

/-- The `dat` level under SERPAD (R55). -/
theorem datAt_of_serpad {env : ScriptEnv} {answer : Vector Byte 9} (h : env.serpad = some answer) {b : Fin 9}
    (hb : s.byteIdx = b.val) : env.datAt s =
      if s.serPhase = .active ∧ s.edgeIdx < 16 then answer[b].getLsbD (s.edgeIdx >>> 1) else true := by
  simp [ScriptEnv.datAt, h, hb, Nat.shiftRight_eq_div_pow]

/-- A request whose values fit is one step with it (R54). -/
theorem feedRequest_of_fields (env : ScriptEnv) (rqt rq : Byte) (wval : BitVec 16) (s : State) :
    feedRequest env rqt.toNat rq.toNat wval.toNat s =
      (feed (encodeStim { env.stim s with reqv := true, rqt := rqt, rq := rq, wval := wval }) s).map
        ({ env with last := env.last + 1 }, ·) := by
  rw [feedRequest, if_pos ⟨rqt.isLt, rq.isLt, wval.isLt⟩]
  simp only [BitVec.ofNat_toNat, BitVec.setWidth_eq]
  cases feed _ s <;> rfl

/-- Settles O49: each pseudo-statement runs its expansion. -/
theorem pseudoStatementsExpand : Obligations.PseudoStatementsExpand := by
  unfold Obligations.PseudoStatementsExpand
  intro env s
  refine ⟨rfl, rfl, fun n => ?_, fun k hk => if_pos hk, fun k hk => if_neg (Nat.not_lt.mpr hk), fun pressed => ?_,
    fun pressed => ?_, padLines_getLsbD, fun _ => rfl, fun answer b h hb => ?_, fun n => rfl, fun rqt rq wval => ?_,
    fun level => runStmt_set_one (setField_dat env level) s,
    fun _ _ hdat e => setFields_serpad hdat (runStmt_set_eq_ok_iff.mp e)⟩
  · rw [Nat.shiftLeft_eq]; rfl
  · rw [runStmt_set_one (setField_lines0 env _)]; rfl
  · rw [runStmt_set_one (setField_lines1 env _)]; rfl
  · rw [ScriptEnv.stim, datAt_of_serpad h hb]
  · refine (feedRequest_of_fields env rqt rq wval s).trans ?_
    cases feed _ s <;> rfl

end Sys2Proof.Machine
end

section
/-! Proofs of the statements of 40_timing_service.md: what RESET leaves, the periodic timers, the transmit and its
causes, a serial engine that HOLD stalls, and the resend at the idle rate. -/

namespace Sys2Proof.Machine

variable {s t : State}

/-! ## RESET (R59, 70_reset_and_hazards.md R130) -/

/-- The reset state of a record has every element at its reset value. -/
theorem resetWith_atReset (p : Params) : (State.resetWith p).AtReset p where
  params := rfl
  phase := rfl
  sel := rfl
  selOe := rfl
  needSample := rfl
  stCnt := rfl
  raw := fun c q => by simp [State.readRaw, State.resetWith]
  ptEn := rfl
  ptPeriod := rfl
  ptCnt := rfl
  serEn := rfl
  serOe := rfl
  serPhase := rfl
  gapCnt := rfl
  byteIdx := rfl
  edgeIdx := rfl
  acc := fun i => by simp [State.resetWith]
  lines := ⟨rfl, rfl, rfl⟩
  scCnt := rfl
  watchdog := ⟨rfl, rfl⟩
  sampleComplete := rfl
  mode := rfl
  rpt := rfl
  idleRate := rfl
  idleCnt := rfl
  idleElapsed := rfl
  itCnt := rfl
  sendPending := rfl
  fault := rfl
  noReport := rfl
  noAnswer := rfl
  trace := rfl

/-- The words to come and the counter of the free values are no elements of R130. -/
theorem State.AtReset.withStream {p : Params} (h : s.AtReset p) (ws : List StimWord) (n : Nat) :
    State.AtReset p { s with inputs := ws, seq := n } :=
  { h with }

theorem opReset_atReset (s : State) : (opReset s).AtReset s.params :=
  (resetWith_atReset s.params).withStream s.inputs s.seq

/-- Settles O10: RESET writes the reset state of the record, from a faulted state too. -/
theorem resetSetsEveryElement : Obligations.ResetSetsEveryElement := by
  unfold Obligations.ResetSetsEveryElement
  refine ⟨fun s => ⟨opReset s, rfl, opReset_atReset s, rfl, rfl, rfl, rfl, rfl, rfl, rfl⟩, fun s w hp hw => ?_,
    resetWith_atReset _⟩
  refine ⟨opReset { s with seq := s.seq + 1 }, ?_, opReset_atReset { s with seq := s.seq + 1 }⟩
  rw [step_giveWord, if_pos hp, exec_decodeTop, rstBit, if_pos hw]

/-! ## The periodic timers (R60) -/

theorem periodicTimer_of_disabled {en : Bool} (h : en = false) (cnt : Nat) (put : State → Nat → State)
    (handler : State → State) (period : State → Nat) (s : State) : periodicTimer en cnt put handler period s = s := by
  rw [periodicTimer, if_neg (ne_true_of_eq_false h)]

theorem periodicTimer_of_counting {en : Bool} {cnt : Nat} (h : en = true) (hcnt : 1 < cnt) (put : State → Nat → State)
    (handler : State → State) (period : State → Nat) (s : State) :
    periodicTimer en cnt put handler period s = put s (cnt - 1) := by
  rw [periodicTimer, if_pos h, if_neg hcnt.ne', State.countDown_of_pos _ hcnt.le]

/-- At count 1 the handler runs, and after it the reload unless it ended in a fault. -/
theorem periodicTimer_of_one {en : Bool} {cnt : Nat} (h : en = true) (hcnt : cnt = 1) {handler : State → State}
    (hf : (handler s).fault = none) (put : State → Nat → State) (period : State → Nat) :
    periodicTimer en cnt put handler period s = put (handler s) (period (handler s)) := by
  rw [periodicTimer, if_pos h, if_pos hcnt, State.andThen_of_noFault hf]

/-- Operations that agree on a state answer it alike. -/
theorem runOp_congr {f g : State → State} (h : f s = g s) : runOp f s = runOp g s := by
  rw [runOp, runOp, h]

/-! ### The idle timer (R61) -/

theorem subIdleTimer_of_counting (hr : s.InRange) (h : s.itCnt ≠ 1) :
    subIdleTimer s = { s with itCnt := s.itCnt - 1 } := by
  have hpos := hr.itCntPos
  have hle := hr.itCnt
  exact (periodicTimer_of_counting rfl (by omega) _ _ _ s).trans (State.putItCnt_of_mem (by omega))

theorem opIdleTick_params (s : State) : (opIdleTick s).params = s.params :=
  (congrArg State.params (opIdleTick_hide s) :)

theorem subIdleTimer_of_tick (hp : s.params.Legal) (h : s.itCnt = 1) (hf : (opIdleTick s).fault = none) :
    subIdleTimer s = { opIdleTick s with itCnt := s.params.tIdle } := by
  have hT : (opIdleTick s).params.tIdle = s.params.tIdle := congrArg Params.tIdle (opIdleTick_params s)
  exact (periodicTimer_of_one rfl h hf _ _).trans ((congrArg (opIdleTick s).putItCnt hT).trans
    (State.putItCnt_of_mem ⟨hp.tIdle.1, hT.ge⟩))

/-! ### The serial timer (R63, 42_serial_engine.md R77) -/

theorem subSerialTimer_of_off (h : s.serEn = false ∨ s.pins.hold = true) : subSerialTimer s = s :=
  periodicTimer_of_disabled (by rcases h with h | h <;> simp [h]) _ _ _ _ s

theorem subSerialTimer_of_counting (hr : s.InRange) (hen : s.serEn = true) (hh : s.pins.hold = false)
    (h : s.scCnt ≠ 1) : subSerialTimer s = { s with scCnt := s.scCnt - 1 } := by
  have hpos := hr.scCntPos
  have hle := hr.scCnt
  exact (periodicTimer_of_counting (by simp [hen, hh]) (by omega) _ _ _ s).trans (State.putScCnt_of_mem (by omega))

/-- The serial tick is the operation that its dispatch selects. -/
theorem exec_serTick (s : State) :
    exec (if s.serPhase = .active then .serEdge else if 0 < s.gapCnt then .serGap else .serStart) s =
      runOp opSerTick s := by
  cases hp : s.serPhase with
  | gap =>
    rw [if_neg nofun]
    split
    · next hg => exact runOp_congr (by simp [opSerTick, hp, hg])
    · next hg => exact runOp_congr (by simp [opSerTick, hp, hg])
  | active => exact runOp_congr (by simp [opSerTick, hp])

theorem opSerGap_fault (hg : 0 < s.gapCnt) (hle : s.gapCnt ≤ s.params.txnGap) (hf : s.fault = none) :
    (opSerGap s).fault = none := by
  rw [opSerGap, State.countDown_of_pos _ hg, State.putGapCnt_of_le (by omega), State.andThen_of_noFault (by exact hf)]
  exact hf

/-- The advance of an edge at indices in range meets no fault. -/
theorem edgeAdvance_fault (hf : s.fault = none) {b e : Nat} (hb : b ≤ 8) (he : e < s.params.eByte) :
    (edgeAdvance b e s).fault = none := by
  by_cases hend : e + 1 = s.params.eByte
  · by_cases hlast : b + 1 ≤ 8
    · rw [edgeAdvance_of_byte hf hlast hend]; exact hf
    · obtain rfl : b = 8 := by omega
      rw [edgeAdvance_of_last hend]; exact hf
  · rw [edgeAdvance_of_edge b (by omega)]; exact hf

theorem opSerEdge_fault (hb : s.byteIdx ≤ 8) (he : s.edgeIdx < s.params.eByte) (hf : s.fault = none) :
    (opSerEdge s).fault = none := by
  rw [opSerEdge, if_pos ⟨hb, he⟩, edge_actions]
  exact edgeAdvance_fault (by exact hf) hb (by exact he)

/-- A serial tick with its counters in range meets no fault. -/
theorem opSerTick_fault (hr : s.InRange) (hf : s.fault = none) : (opSerTick s).fault = none := by
  unfold opSerTick
  cases s.serPhase with
  | gap =>
    simp only []
    split
    · next hg => exact opSerGap_fault hg hr.gapCnt hf
    · exact hf
  | active => exact opSerEdge_fault hr.byteIdx hr.edgeIdx hf

theorem opSerTick_params (s : State) : (opSerTick s).params = s.params :=
  (congrArg State.params (opSerTick_hide s) :)

theorem subSerialTimer_of_tick (hp : s.params.Legal) (hr : s.InRange) (hf : s.fault = none) (hen : s.serEn = true)
    (hh : s.pins.hold = false) (h : s.scCnt = 1) :
    subSerialTimer s = { opSerTick s with scCnt := s.params.tHalf } := by
  have hT : (opSerTick s).params.tHalf = s.params.tHalf := congrArg Params.tHalf (opSerTick_params s)
  exact (periodicTimer_of_one (by simp [hen, hh]) h (opSerTick_fault hr hf) _ _).trans
    ((congrArg (opSerTick s).putScCnt hT).trans (State.putScCnt_of_mem ⟨hp.tHalf.1, hT.ge⟩))

/-! ### The poll timer (R64, 41_mux_engine.md R68) -/

theorem subPollTimer_of_off (h : s.ptEn = false) : subPollTimer s = s := periodicTimer_of_disabled h _ _ _ _ s

theorem subPollTimer_of_counting (hr : s.InRange) (hen : s.ptEn = true) (h : s.ptCnt ≠ 1) :
    subPollTimer s = { s with ptCnt := s.ptCnt - 1 } := by
  have hpos := hr.ptCntPos
  have hle := hr.ptCnt
  exact (periodicTimer_of_counting hen (by omega) _ _ _ s).trans (State.putPtCnt_of_mem (by omega))

/-- The poll tick is the operation that its dispatch selects. -/
theorem exec_pollTick (h : s.phase ≤ 8) :
    exec (if s.phase ≤ 6 then .pollAdvance else if s.phase = 7 then .pollFinish else .pollRestart) s =
      runOp opPollTick s := by
  split
  · next hadvance => exact runOp_congr (by rw [opPollTick, if_pos hadvance])
  · next hadvance =>
    split
    · next hfinish => exact runOp_congr (by rw [opPollTick, if_neg hadvance, if_pos hfinish])
    · next hfinish =>
      exact runOp_congr (by rw [opPollTick, if_neg hadvance, if_neg hfinish, if_pos (by omega)])

/-- A poll tick at a phase in range meets no fault and leaves a period that the timer can be reloaded with. -/
theorem opPollTick_reload (hp : s.params.Legal) (hr : s.InRange) (hf : s.fault = none) :
    (opPollTick s).fault = none ∧ 1 ≤ (opPollTick s).ptPeriod ∧ (opPollTick s).ptPeriod ≤ 65535 := by
  have hpoll := hp.tPoll
  have hgap := hp.tGap
  have hperiod := hr.ptPeriod
  have hphase := hr.phase
  unfold opPollTick
  split
  · rw [opPollAdvance, State.putPhase_of_le (by omega), State.andThen_of_noFault (by exact hf)]
    exact ⟨hf, show 1 ≤ s.ptPeriod ∧ s.ptPeriod ≤ 65535 by omega⟩
  · split
    · exact ⟨hf, hgap⟩
    · rw [if_pos (by omega)]
      exact ⟨hf, hpoll⟩

theorem subPollTimer_of_tick (hp : s.params.Legal) (hr : s.InRange) (hf : s.fault = none) (hen : s.ptEn = true)
    (h : s.ptCnt = 1) : subPollTimer s = { opPollTick s with ptCnt := (opPollTick s).ptPeriod } := by
  obtain ⟨hnone, hperiod⟩ := opPollTick_reload hp hr hf
  exact (periodicTimer_of_one hen h hnone _ _).trans (State.putPtCnt_of_mem hperiod)

/-- Settles O12: each timer is held, counts down, or runs its dispatched operation and the reload after it. -/
theorem periodicTimersCountAndFire : Obligations.PeriodicTimersCountAndFire := by
  unfold Obligations.PeriodicTimersCountAndFire
  intro s hf hp hr
  exact ⟨subIdleTimer_of_counting hr,
    fun h => ⟨opIdleTick s, runOp_of_noFault hf _, subIdleTimer_of_tick hp h⟩,
    subSerialTimer_of_off,
    fun hen hh => ⟨subSerialTimer_of_counting hr hen hh, fun h => ⟨opSerTick s,
      (exec_serTick s).trans (runOp_of_noFault hf _), opSerTick_fault hr hf, subSerialTimer_of_tick hp hr hf hen hh h⟩⟩,
    subPollTimer_of_off,
    fun hen => ⟨subPollTimer_of_counting hr hen, fun h => ⟨opPollTick s,
      (exec_pollTick hr.phase).trans (runOp_of_noFault hf _), (opPollTick_reload hp hr hf).1,
      subPollTimer_of_tick hp hr hf hen h⟩⟩⟩

/-! ## The idle timer and its count (R61, 45_idle_transmit_host.md R106, R110) -/

/-- What the idle tick counts with. -/
structure IdleCount where
  rate : Byte
  count : Nat
  elapsed : Bool
  tick : Nat
  period : Nat

/-- The idle count of the state, with its timer and its rate. -/
def State.idle (s : State) : IdleCount where
  rate := s.idleRate
  count := s.idleCnt
  elapsed := s.idleElapsed
  tick := s.itCnt
  period := s.params.tIdle

/-- The inputs carry SET_IDLE (30_encoding.md R49). -/
abbrev SetsIdle (st : Stim) : Prop := st.reqv = true ∧ st.rqt = 0x21 ∧ st.rq = 0x0A

/-- In S1 only SET_IDLE writes the idle count: it stores the rate and restarts the count. -/
theorem subRequest_idle (s : State) : (subRequest s).idle =
    if SetsIdle s.pins then { s.idle with rate := idleOperand s.pins.wval, count := 0, elapsed := false }
    else s.idle := by
  by_cases hv : s.pins.reqv = true
  · rw [subRequest_of_request hv, Stim.request, decodeRequest]
    by_cases hset : s.pins.rqt = 0x21 ∧ s.pins.rq = 0x0A
    · rw [if_pos (show SetsIdle s.pins from ⟨hv, hset⟩), hset.1, hset.2]
      rfl
    · rw [if_neg (show ¬ SetsIdle s.pins from fun h => hset h.2), if_neg hset]
      split_ifs <;> rfl
  · rw [subRequest_of_noRequest (eq_false_of_ne_true hv), if_neg fun h => hv h.1]

theorem subRequest_itCnt (s : State) : (subRequest s).itCnt = s.itCnt :=
  SubStep.request.run_keeps (f := State.itCnt) (fun _ => rfl) s

theorem subRequest_params (s : State) : (subRequest s).params = s.params :=
  SubStep.request.run_keeps (f := State.params) (fun _ => rfl) s

/-- A tick that counts (R106). -/
theorem opIdleTick_of_counting (hf : s.fault = none) (hr : s.idleRate ≠ 0) (he : s.idleElapsed = false)
    (hc : s.idleCnt < 255) : opIdleTick s =
      { s with
        trace := s.trace ++ [0x20], idleCnt := s.idleCnt + 1
        idleElapsed := decide (s.idleRate.toNat ≤ s.idleCnt + 1) } := by
  rw [opIdleTick, if_pos ⟨hr, he⟩, State.countIdle, State.putIdleCnt_of_le (by exact hc),
    State.andThen_of_noFault (by exact hf)]
  by_cases hle : s.idleRate.toNat ≤ s.idleCnt + 1
  · rw [if_pos (by exact hle), decide_eq_true hle]
    rfl
  · rw [if_neg (by exact hle), decide_eq_false hle, ← he]
    rfl

/-- A tick at rate 0 or once elapsed leaves its code only (R106). -/
theorem opIdleTick_of_not_counting (h : s.idleRate = 0 ∨ s.idleElapsed = true) : opIdleTick s = s.emit 0x20 :=
  if_neg fun hn => h.elim hn.1 (Bool.eq_false_iff.mp hn.2)

/-- A tick without a fault elapses where the count reaches the rate. -/
theorem opIdleTick_elapsed_iff (hf : s.fault = none) (hn : (opIdleTick s).fault = none) :
    (opIdleTick s).idleElapsed = true ↔
      s.idleElapsed = true ∨ (s.idleRate ≠ 0 ∧ s.idleRate.toNat ≤ s.idleCnt + 1) := by
  by_cases he : s.idleElapsed = true
  · rw [opIdleTick_of_not_counting (.inr he)]
    exact iff_of_true he (.inl he)
  · by_cases hr : s.idleRate = 0
    · rw [opIdleTick_of_not_counting (.inl hr)]
      exact iff_of_false he fun h => (h.resolve_left he).1 hr
    · have hc : s.idleCnt < 255 := by
        by_contra hge
        rw [opIdleTick_outOfRange hr (eq_false_of_ne_true he) (by omega)] at hn
        cases hn
      rw [opIdleTick_of_counting hf hr (eq_false_of_ne_true he) hc]
      exact decide_eq_true_iff.trans ⟨fun hle => .inr ⟨hr, hle⟩, fun h => (h.resolve_left he).2⟩

theorem State.putItCnt_of_noFault {v : Nat} (h : (s.putItCnt v).fault = none) :
    s.putItCnt v = { s with itCnt := v } := by
  unfold State.putItCnt at h ⊢
  split
  · rfl
  · next hout => rw [if_neg hout] at h; cases h

theorem State.countDown_of_noFault {put : State → Nat → State} {cnt : Nat} (h : (s.countDown put cnt).fault = none) :
    s.countDown put cnt = put s (cnt - 1) := by
  cases cnt with
  | zero => cases h
  | succ n => rfl

/-- What S2 can do without a fault: the tick and a reload, or one count down. -/
theorem subIdleTimer_cases (hn : (subIdleTimer s).fault = none) :
    (s.itCnt = 1 ∧ (opIdleTick s).fault = none ∧ ∃ v, subIdleTimer s = { opIdleTick s with itCnt := v }) ∨
    (s.itCnt ≠ 1 ∧ ∃ v, subIdleTimer s = { s with itCnt := v }) := by
  unfold subIdleTimer at hn ⊢
  rcases periodicTimer_cases true s.itCnt State.putItCnt opIdleTick (fun t => t.params.tIdle) s with
    ⟨he, -⟩ | ⟨-, h1, e⟩ | ⟨-, hne, e⟩
  · cases he
  · rw [e] at hn ⊢
    obtain ⟨htick, e⟩ := State.andThen_eq_of_noFault hn
    rw [e] at hn ⊢
    exact .inl ⟨h1, htick, _, State.putItCnt_of_noFault hn⟩
  · rw [e] at hn ⊢
    have hput := State.countDown_of_noFault hn
    rw [hput] at hn ⊢
    exact .inr ⟨hne, _, State.putItCnt_of_noFault hn⟩

/-- After S2 an elapse waits if it did before or if this step's tick made it. -/
theorem subIdleTimer_elapsed_iff (hf : s.fault = none) (hn : (subIdleTimer s).fault = none) :
    (subIdleTimer s).idleElapsed = true ↔ s.idleElapsed = true ∨
      (s.itCnt = 1 ∧ s.idleRate ≠ 0 ∧ s.idleRate.toNat ≤ s.idleCnt + 1) := by
  rcases subIdleTimer_cases hn with ⟨h1, htick, v, e⟩ | ⟨hne, v, e⟩ <;> rw [e]
  · exact (opIdleTick_elapsed_iff hf htick).trans (by simp [h1])
  · simp [hne]

/-- S1 and S2 on these inputs. -/
def idleSubSteps (st : Stim) (s : State) : State := subIdleTimer (subRequest (s.beginStep st))

/-- An elapse waits after S2 if it did before the step and no SET_IDLE dropped it, or if this step's tick made it. -/
theorem idleSubSteps_elapsed_iff {st : Stim} (hf : s.fault = none) (hn : (idleSubSteps st s).fault = none) :
    (idleSubSteps st s).idleElapsed = true ↔ (s.idleElapsed = true ∧ ¬ SetsIdle st) ∨
      (s.itCnt = 1 ∧ (idleSubSteps st s).idleRate ≠ 0 ∧
        (idleSubSteps st s).idleRate.toNat ≤ (if SetsIdle st then 0 else s.idleCnt) + 1) := by
  have hone := subRequest_idle (s.beginStep st)
  have hrate : (idleSubSteps st s).idleRate = (subRequest (s.beginStep st)).idleRate :=
    SubStep.idleTimer.run_keeps (f := State.idleRate) (fun _ => rfl) _
  have htick : (subRequest (s.beginStep st)).itCnt = s.itCnt := subRequest_itCnt _
  rw [hrate, ← htick]
  refine (subIdleTimer_elapsed_iff (s := subRequest (s.beginStep st)) ((subRequest_fault _).trans hf) hn).trans ?_
  rw [State.beginStep_pins] at hone
  by_cases hset : SetsIdle st
  · rw [if_pos hset] at hone ⊢
    have hcount : (subRequest (s.beginStep st)).idleCnt = 0 := congrArg IdleCount.count hone
    have helapsed : (subRequest (s.beginStep st)).idleElapsed = false := congrArg IdleCount.elapsed hone
    simp [hcount, helapsed, hset]
  · rw [if_neg hset] at hone ⊢
    have hcount : (subRequest (s.beginStep st)).idleCnt = s.idleCnt := congrArg IdleCount.count hone
    have helapsed : (subRequest (s.beginStep st)).idleElapsed = s.idleElapsed := congrArg IdleCount.elapsed hone
    simp [hcount, helapsed, hset]

/-! ## The transmit and its causes (R107) -/

/-- The report held, its pending flag and the report sent in this step. -/
def State.held (s : State) : Report × Bool × Option Report := (s.rpt, s.sendPending, s.tx)

theorem State.countIdle_held (s : State) : s.countIdle.held = s.held :=
  State.andThen_keeps (f := State.held) (by unfold State.putIdleCnt; split <;> rfl) fun t ht => by split <;> exact ht

theorem opIdleTick_held (s : State) : (opIdleTick s).held = s.held := by
  unfold opIdleTick
  split
  · exact State.countIdle_held _
  · rfl

theorem subIdleTimer_held (s : State) : (subIdleTimer s).held = s.held :=
  periodicTimer_keeps (fun _ _ => rfl) (fun s v => by unfold State.putItCnt; split <;> rfl) opIdleTick_held _ _ _ s

/-- S3 to S7. -/
def SubStep.engines : List SubStep := [.watchdog, .serialTimer, .pollTimer, .settle, .arbitrate]

theorem runSubSteps_engines_held (s : State) : (runSubSteps SubStep.engines s).held = s.held :=
  runSubSteps_keeps (by simp [SubStep.engines, SubStep.owner, State.held, Owner.hide, Owner.blank, State.hideCodes]) s

/-- A build leaves the flag set where it was, and where the report changed (44_report_formatter.md R103). -/
theorem subBuild_pending_iff (s : State) :
    (subBuild s).sendPending = true ↔ s.sendPending = true ∨ (subBuild s).rpt ≠ s.rpt := by
  have hbuild : ∀ r, (s.build r).sendPending = true ↔ s.sendPending = true ∨ (s.build r).rpt ≠ s.rpt := fun r => by
    simp [State.build_eq]
  unfold subBuild
  split
  · cases s.mode with
    | mux => exact hbuild _
    | serial => exact hbuild _
    | undecided | three => simp
  · simp

/-- S3 to S8 leave the idle count alone. -/
theorem subBuild_engines_idle (s : State) : (subBuild (runSubSteps SubStep.engines s)).idle = s.idle :=
  (SubStep.build.run_keeps (f := State.idle) (fun _ => rfl) _).trans
    (runSubSteps_keeps (by
      simp [SubStep.engines, SubStep.owner, State.idle, Owner.hide, Owner.blank, State.hideCodes]) s)

/-- A stretch of a step without a fault at its end had none at its start (60_exceptions.md R119). -/
theorem runSubSteps_noFault {xs : List SubStep} (h : (runSubSteps xs s).fault = none) : s.fault = none := by
  induction xs generalizing s with
  | nil => exact h
  | cons x xs ih => exact (State.andThen_eq_of_noFault (ih h)).1

theorem idleSubSteps_held (st : Stim) (s : State) : (idleSubSteps st s).held = (s.rpt, s.sendPending, none) :=
  (subIdleTimer_held _).trans (SubStep.request.run_keeps (f := State.held) (fun _ => rfl) (s.beginStep st))

theorem idleSubSteps_pins (st : Stim) (s : State) : (idleSubSteps st s).pins = st :=
  (SubStep.idleTimer.run_keeps (f := State.pins) (fun _ => rfl) _).trans
    (SubStep.request.run_keeps (f := State.pins) (fun _ => rfl) (s.beginStep st))

/-- The state that S9 finds at the end of a step without a fault. -/
theorem opStep_eq_subTransmit {st : Stim} (hf : s.fault = none) (hn : (opStep st s).fault = none) :
    (idleSubSteps st s).fault = none ∧
    ∃ u, opStep st s = subTransmit u ∧ u.pins = st ∧ u.tx = none ∧ u.idle = (idleSubSteps st s).idle ∧
      (u.sendPending = true ↔ s.sendPending = true ∨ u.rpt ≠ s.rpt) := by
  have hsplit : opStep st s =
      ((runSubSteps SubStep.engines (idleSubSteps st s)).andThen subBuild).andThen subTransmit := by
    rw [idleSubSteps, ← State.andThen_of_noFault ((subRequest_fault (s.beginStep st)).trans hf) subIdleTimer]
    rfl
  have hheld := (runSubSteps_engines_held _).trans (idleSubSteps_held st s)
  have hpins := (runSubSteps_pins SubStep.engines _).trans (idleSubSteps_pins st s)
  have hidle := subBuild_engines_idle (idleSubSteps st s)
  have hstart := runSubSteps_noFault (xs := SubStep.engines) (s := idleSubSteps st s)
  rw [hsplit] at hn ⊢
  generalize runSubSteps SubStep.engines (idleSubSteps st s) = c at *
  obtain ⟨hn8, e9⟩ := State.andThen_eq_of_noFault hn
  obtain ⟨hn7, e8⟩ := State.andThen_eq_of_noFault hn8
  simp only [State.held, Prod.mk.injEq] at hheld
  obtain ⟨hrpt, hpending, htx⟩ := hheld
  refine ⟨hstart hn7, subBuild c, e9.trans (congrArg subTransmit e8),
    (SubStep.build.run_keeps (f := State.pins) (fun _ => rfl) c).trans hpins,
    (SubStep.build.run_keeps (f := State.tx) (fun _ => rfl) c).trans htx, hidle, ?_⟩
  rw [subBuild_pending_iff, hrpt, hpending]

/-- The condition of S9. -/
def State.TransmitDue (s : State) : Prop :=
  s.mode ≠ .undecided ∧ s.pins.epRdy = true ∧ (s.sendPending = true ∨ s.idleElapsed = true)

theorem subTransmit_of_due (h : s.TransmitDue) : subTransmit s = opTransmit s := if_pos h

theorem subTransmit_of_not_due (h : ¬ s.TransmitDue) : subTransmit s = s := if_neg h

theorem subTransmit_sends_iff (h : s.tx = none) : (∃ r, (subTransmit s).tx = some r) ↔ s.TransmitDue := by
  by_cases hdue : s.TransmitDue
  · rw [subTransmit_of_due hdue]
    exact iff_of_true ⟨_, rfl⟩ hdue
  · rw [subTransmit_of_not_due hdue, h]
    exact iff_of_false nofun hdue

/-- What is sent is the report held. -/
theorem subTransmit_sent {r : Report} (h : s.tx = none) (hr : (subTransmit s).tx = some r) :
    s.TransmitDue ∧ r = s.rpt := by
  have hdue := (subTransmit_sends_iff h).mp ⟨r, hr⟩
  rw [subTransmit_of_due hdue] at hr
  exact ⟨hdue, (Option.some.inj hr).symm⟩

/-- Settles O38: the causes at S9 are those that the step found and those that S2 and S8 made. -/
theorem transmitExactlyWhenDue : Obligations.TransmitExactlyWhenDue := by
  unfold Obligations.TransmitExactlyWhenDue
  intro s t st e hn
  rw [exec_step] at e
  obtain ⟨hf, rfl⟩ := runOp_eq_next.mp e
  obtain ⟨hn2, u, e9, hpins, htx, hidle, hpending⟩ := opStep_eq_subTransmit hf hn
  have helapsed := idleSubSteps_elapsed_iff hf hn2
  simp only [State.idle, IdleCount.mk.injEq] at hidle
  obtain ⟨hrate, -, hel, -⟩ := hidle
  have hmode : (subTransmit u).mode = u.mode := SubStep.transmit.run_keeps (f := State.mode) (fun _ => rfl) u
  have hrpt : (subTransmit u).rpt = u.rpt := SubStep.transmit.run_keeps (f := State.rpt) (fun _ => rfl) u
  have hrate' : (subTransmit u).idleRate = u.idleRate :=
    SubStep.transmit.run_keeps (f := State.idleRate) (fun _ => rfl) u
  have hdue : u.TransmitDue ↔ u.mode ≠ .undecided ∧ st.epRdy = true ∧
      (u.sendPending = true ∨ u.idleElapsed = true) := by rw [State.TransmitDue, hpins]
  rw [e9, hmode, hrpt, hrate']
  refine ⟨?_, fun r hr => ?_, fun hm hready => ?_, fun hne => ?_⟩
  · rw [subTransmit_sends_iff htx, hdue, hpending, hel, helapsed, hrate, or_assoc]
  · obtain ⟨hsend, rfl⟩ := subTransmit_sent htx hr
    rw [subTransmit_of_due hsend]
    exact ⟨rfl, by simp [opTransmit], rfl, rfl, rfl, rfl⟩
  · by_cases hsend : u.TransmitDue
    · rw [subTransmit_of_due hsend]
      exact ⟨rfl, rfl⟩
    · rw [subTransmit_of_not_due hsend]
      have hnone := fun h => hsend (hdue.mpr ⟨hm, hready, h⟩)
      exact ⟨eq_false_of_ne_true fun h => hnone (.inl h), eq_false_of_ne_true fun h => hnone (.inr h)⟩
  · by_cases hsend : u.TransmitDue
    · rw [subTransmit_of_due hsend]
      exact .inr rfl
    · rw [subTransmit_of_not_due hsend]
      exact .inl (hpending.mpr (.inr hne))

/-! ## S1 and S2 under the invariant -/

theorem idleSubSteps_mid (h : s.Inv) (st : Stim) : (idleSubSteps st s).Mid true 1 :=
  subIdleTimer_mid (subRequest_mid (h.mid.beginStep st))

/-- Under the invariant S2 counts down, or ticks and is reloaded (R61). -/
theorem idleSubSteps_cases (h : s.Inv) (st : Stim) :
    (s.itCnt ≠ 1 ∧ idleSubSteps st s = { subRequest (s.beginStep st) with itCnt := s.itCnt - 1 }) ∨
    (s.itCnt = 1 ∧ idleSubSteps st s = { opIdleTick (subRequest (s.beginStep st)) with itCnt := s.params.tIdle }) := by
  have hone := subRequest_mid (h.mid.beginStep st)
  have hcnt : (subRequest (s.beginStep st)).itCnt = s.itCnt := subRequest_itCnt _
  have hparams : (subRequest (s.beginStep st)).params = s.params := subRequest_params _
  rw [idleSubSteps, ← hcnt, ← hparams]
  generalize subRequest (s.beginStep st) = a at hone
  by_cases h1 : a.itCnt = 1
  · exact .inr ⟨h1, subIdleTimer_of_tick hone.legal h1 (opIdleTick_mid hone).noFault⟩
  · exact .inl ⟨h1, subIdleTimer_of_counting hone.range h1⟩

theorem idleSubSteps_itCnt (h : s.Inv) (st : Stim) :
    (idleSubSteps st s).itCnt = if s.itCnt = 1 then s.params.tIdle else s.itCnt - 1 := by
  rcases idleSubSteps_cases h st with ⟨hcnt, e⟩ | ⟨hcnt, e⟩ <;> rw [e]
  · rw [if_neg hcnt]
  · rw [if_pos hcnt]

/-! ### The codes of a step by their places -/

theorem State.Ordered.not_mem {n : Nat} {c : Byte} (h : s.Ordered n) (hc : n < eventPlace c) : c ∉ s.trace :=
  fun hin => Nat.not_le.mpr hc (h.2 c hin).2

theorem subRequest_beginStep_ordered (st : Stim) (s : State) : (subRequest (s.beginStep st)).Ordered 1 :=
  subRequest_ordered ⟨.nil, nofun⟩

theorem idleSubSteps_ordered (st : Stim) (s : State) : (idleSubSteps st s).Ordered 2 :=
  subIdleTimer_ordered (subRequest_beginStep_ordered st s)

/-- The code of IDLE_TICK shows the tick. -/
theorem idleSubSteps_tick_iff (h : s.Inv) (st : Stim) : 0x20 ∈ (idleSubSteps st s).trace ↔ s.itCnt = 1 := by
  rcases idleSubSteps_cases h st with ⟨hcnt, e⟩ | ⟨hcnt, e⟩ <;> rw [e]
  · exact iff_of_false ((subRequest_beginStep_ordered st s).not_mem (by decide)) hcnt
  · exact iff_of_true (by simp [opIdleTick_trace]) hcnt

theorem subTransmit_mem_trace {c : Byte} (hc : c ≠ 0x33) (s : State) :
    c ∈ (subTransmit s).trace ↔ c ∈ s.trace := by
  unfold subTransmit
  split
  · rw [opTransmit, State.emit_trace, List.mem_append, List.mem_singleton, or_iff_left hc]
    rfl
  · rfl

/-! ## A stalled serial engine (R62, R63, R128) -/

/-- The serial engine with what the report is built from and when. -/
def State.engine (s : State) : Transaction × Vector Byte 6 × Report × Mode × Bool :=
  (s.transaction, s.acc, s.rpt, s.mode, s.sampleComplete)

theorem idleSubSteps_engine (st : Stim) (s : State) : (idleSubSteps st s).engine = s.engine :=
  (SubStep.idleTimer.run_keeps (f := State.engine) (fun _ => rfl) _).trans
    (SubStep.request.run_keeps (f := State.engine) (fun _ => rfl) (s.beginStep st))

theorem subTransmit_engine (s : State) : (subTransmit s).engine = s.engine :=
  SubStep.transmit.run_keeps (f := State.engine) (fun _ => rfl) s

/-- The watchdog marks no sample set (42_serial_engine.md R86). -/
theorem subWatchdog_sampleComplete (s : State) : (subWatchdog s).sampleComplete = s.sampleComplete :=
  oneShot_keeps (f := State.sampleComplete) (fun _ _ => rfl) (fun s v => by unfold State.putWdCnt; split <;> rfl)
    (fun s => by simp [opWdogExpire]) _ _ _ s

/-- The watchdog leaves the serial timer alone (R86). -/
theorem subWatchdog_scCnt (s : State) : (subWatchdog s).scCnt = s.scCnt :=
  oneShot_keeps (f := State.scCnt) (fun _ _ => rfl) (fun s v => by unfold State.putWdCnt; split <;> rfl)
    (fun s => by simp [opWdogExpire]) _ _ _ s

/-- In serial mode, with HOLD and no sample set, S4 to S8 do nothing. -/
theorem lateSubSteps_of_stalled {early : Bool} {k : Nat} (h : s.Mid early k) (hm : s.mode = .serial)
    (hh : s.pins.hold = true) (hc : s.sampleComplete = false) :
    subBuild (subArbitrate (subSettle (subPollTimer (subSerialTimer s)))) = s := by
  have hneed : s.needSample = false := eq_false_of_ne_true fun hn => h.latchMux hn hm
  rw [subSerialTimer_of_off (.inr hh), subPollTimer_of_off (h.ptEnIff.mpr hm), subSettle,
    oneShot_of_disarmed hneed, subArbitrate_of_not_due h.modeLegal (by simp [hm]), subBuild_of_not_due (.inl hc)]

/-- A step of serial mode under HOLD is the idle timer, the watchdog and the transmit. -/
theorem opStep_of_stalled (h : s.Inv) (hm : s.mode = .serial) {st : Stim} (hh : st.hold = true) :
    opStep st s = subTransmit (subWatchdog (idleSubSteps st s)) := by
  have hengine := idleSubSteps_engine st s
  simp only [State.engine, Prod.mk.injEq] at hengine
  obtain ⟨-, -, -, hmode, hcomplete⟩ := hengine
  have hmode' : (subWatchdog (idleSubSteps st s)).mode = (idleSubSteps st s).mode :=
    SubStep.watchdog.run_keeps (f := State.mode) (fun _ => rfl) _
  have hpins : (subWatchdog (idleSubSteps st s)).pins = (idleSubSteps st s).pins :=
    SubStep.watchdog.run_keeps (f := State.pins) (fun _ => rfl) _
  have hlate := lateSubSteps_of_stalled (subWatchdog_mid (idleSubSteps_mid h st))
    (hmode'.trans (hmode.trans hm)) (by rw [hpins, idleSubSteps_pins, hh])
    ((subWatchdog_sampleComplete _).trans (hcomplete.trans h.consumed))
  exact (afterRequest_of_mid (subRequest_mid (h.mid.beginStep st))).1.trans (congrArg subTransmit hlate)

/-- While the watchdog counts, a stalled transaction stands (R62). -/
theorem opStep_stalled_counting (h : s.Inv) (hp : s.serPhase = .active) {st : Stim} (hh : st.hold = true)
    (hw : 1 < s.wdCnt) :
    (opStep st s).engine = ({ s.transaction with wdCnt := s.wdCnt - 1 }, s.acc, s.rpt, s.mode, s.sampleComplete) := by
  have hengine := idleSubSteps_engine st s
  have htransaction : (idleSubSteps st s).transaction = s.transaction := congrArg Prod.fst hengine
  have hphase : (idleSubSteps st s).serPhase = s.serPhase := congrArg Transaction.serPhase htransaction
  have hcnt : (idleSubSteps st s).wdCnt = s.wdCnt := congrArg Transaction.wdCnt htransaction
  rw [opStep_of_stalled h (h.activeSerial hp).1 hh, subTransmit_engine,
    subWatchdog_of_active (idleSubSteps_mid h st) (hphase.trans hp) (hcnt.symm ▸ hw), hcnt]
  exact congrArg (fun e => ({ e.1 with wdCnt := s.wdCnt - 1 }, e.2)) hengine

theorem opWdogExpire_engine (s : State) : (opWdogExpire s).engine =
    ({ s.transaction with byteIdx := 0, edgeIdx := 0, serPhase := .gap, wdArmed := false, wdCnt := 0 },
      Vector.replicate 6 0x00, s.rpt, s.mode, s.sampleComplete) := by
  simp [opWdogExpire, State.engine, State.transaction]

/-- When the watchdog's count ends, a stalled transaction is abandoned (R86). -/
theorem opStep_stalled_expiry (h : s.Inv) (hp : s.serPhase = .active) {st : Stim} (hh : st.hold = true)
    (hw : s.wdCnt = 1) : 0x14 ∈ (opStep st s).trace ∧ (opStep st s).engine =
      ({ s.transaction with byteIdx := 0, edgeIdx := 0, serPhase := .gap, wdArmed := false, wdCnt := 0 },
        Vector.replicate 6 0x00, s.rpt, s.mode, s.sampleComplete) := by
  have hengine := idleSubSteps_engine st s
  simp only [State.engine, Prod.mk.injEq] at hengine
  obtain ⟨htransaction, -, hrpt, hmode, hcomplete⟩ := hengine
  have harmed : (idleSubSteps st s).wdArmed = s.wdArmed := congrArg Transaction.wdArmed htransaction
  have hcnt : (idleSubSteps st s).wdCnt = s.wdCnt := congrArg Transaction.wdCnt htransaction
  obtain ⟨hm, ha⟩ := h.activeSerial hp
  rw [opStep_of_stalled h hm hh, subWatchdog, oneShot_of_last (harmed.trans ha) (hcnt.trans hw),
    subTransmit_mem_trace (by decide), subTransmit_engine, opWdogExpire_engine, htransaction, hrpt, hmode, hcomplete]
  exact ⟨List.mem_append_right _ (List.mem_singleton_self _), rfl⟩

/-- An armed watchdog shows a transaction in progress (10_state.md R34 item 4). -/
theorem State.Inv.active_of_armed (h : s.Inv) (ha : s.wdArmed = true) : s.serPhase = .active := by
  cases hp : s.serPhase with
  | active => rfl
  | gap =>
    obtain ⟨-, -, hoff, -⟩ := h.gapIdle hp
    rw [hoff] at ha
    cases ha

/-- In a stalled step S4 emits no code. -/
theorem opStep_stalled_not_mem (h : s.Inv) (hm : s.mode = .serial) {st : Stim} (hh : st.hold = true) {c : Byte}
    (hc : c ≠ 0x33 ∧ 3 < eventPlace c) : c ∉ (opStep st s).trace := by
  rw [opStep_of_stalled h hm hh, subTransmit_mem_trace hc.1]
  exact (subWatchdog_ordered (idleSubSteps_ordered st s)).not_mem hc.2

theorem opStep_stalled_scCnt (h : s.Inv) (hm : s.mode = .serial) {st : Stim} (hh : st.hold = true) :
    (opStep st s).scCnt = s.scCnt := by
  have hidle : (idleSubSteps st s).scCnt = s.scCnt := congrArg (·.1.scCnt) (idleSubSteps_engine st s)
  have hsend : ∀ u, (subTransmit u).scCnt = u.scCnt := SubStep.transmit.run_keeps (f := State.scCnt) fun _ => rfl
  rw [opStep_of_stalled h hm hh, hsend, subWatchdog_scCnt, hidle]

/-- The idle timer of a stalled step: its tick, and its reload there or by a transmit (R61, R107). -/
theorem opStep_stalled_idleTimer (h : s.Inv) (hm : s.mode = .serial) {st : Stim} (hh : st.hold = true) :
    (0x20 ∈ (opStep st s).trace ↔ s.itCnt = 1) ∧
    (opStep st s).itCnt = if s.itCnt = 1 ∨ 0x33 ∈ (opStep st s).trace then s.params.tIdle else s.itCnt - 1 := by
  have hwd : (subWatchdog (idleSubSteps st s)).itCnt = (idleSubSteps st s).itCnt :=
    SubStep.watchdog.run_keeps (f := State.itCnt) (fun _ => rfl) _
  have htick : 0x20 ∈ (subWatchdog (idleSubSteps st s)).trace ↔ 0x20 ∈ (idleSubSteps st s).trace :=
    iff_of_eq (SubStep.watchdog.run_keeps (f := fun u => 0x20 ∈ u.trace) (Owner.mem_trace_hide (by decide)) _)
  have hsend := (subWatchdog_ordered (idleSubSteps_ordered st s)).not_mem (c := 0x33) (by decide)
  have hparams : (subWatchdog (idleSubSteps st s)).params = s.params :=
    (SubStep.watchdog.run_keeps (f := State.params) (fun _ => rfl) _).trans
      (congrArg (·.1.params) (idleSubSteps_engine st s))
  rw [opStep_of_stalled h hm hh, subTransmit_mem_trace (by decide), htick, idleSubSteps_tick_iff h]
  rw [idleSubSteps_itCnt h] at hwd
  generalize subWatchdog (idleSubSteps st s) = w at *
  refine ⟨Iff.rfl, ?_⟩
  by_cases hdue : w.TransmitDue
  · rw [subTransmit_of_due hdue, if_pos (.inr (by simp [opTransmit]))]
    exact congrArg Params.tIdle hparams
  · simp only [subTransmit_of_not_due hdue, hsend, or_false]
    exact hwd

/-- Settles O47: the step is the idle timer, the watchdog and the transmit. -/
theorem holdStallsTheSerialTimerOnly : Obligations.HoldStallsTheSerialTimerOnly := by
  unfold Obligations.HoldStallsTheSerialTimerOnly
  intro s t st h hm hh e
  rw [exec_step] at e
  obtain ⟨-, rfl⟩ := runOp_eq_next.mp e
  obtain ⟨htick, hit⟩ := opStep_stalled_idleTimer h hm hh
  have hcode := fun c hc => opStep_stalled_not_mem h hm hh (c := c) hc
  refine ⟨opStep_stalled_scCnt h hm hh, hcode 0x10 (by decide), hcode 0x11 (by decide), hcode 0x12 (by decide),
    hcode 0x13 (by decide), fun ha hw => ?_, fun ha hw => ?_, htick, hit⟩
  · have hengine := opStep_stalled_counting h (h.active_of_armed ha) hh hw
    simp only [State.engine, State.transaction, Prod.mk.injEq, Transaction.mk.injEq] at hengine
    obtain ⟨⟨-, -, hphase, -, -, -, harmed, hcnt⟩, hacc, -⟩ := hengine
    exact ⟨harmed.trans ha, hcnt, hphase, hacc⟩
  · obtain ⟨hcode, hengine⟩ := opStep_stalled_expiry h (h.active_of_armed ha) hh hw
    simp only [State.engine, State.transaction, Prod.mk.injEq, Transaction.mk.injEq] at hengine
    obtain ⟨⟨-, -, hphase, -, -, -, harmed, -⟩, -, hrpt, -⟩ := hengine
    exact ⟨hcode, hphase, harmed, hrpt⟩

/-! ## Runs that count down to an event -/

/-- From `P` each step takes one from the count `m` and shows `G`, until the step at count 1 shows `F`. -/
theorem run_countdown {P G F : State → Prop} {m : State → Nat} (hpos : ∀ s, P s → 0 < m s)
    (hstep : ∀ s, P s → ∃ u, step s = .next u ∧ ((m s = 1 ∧ F u) ∨ (m s = m u + 1 ∧ P u ∧ G u))) (h : P s) :
    (∀ k u, 0 < k → k < m s → core.run k s = .next u → G u) ∧ ∃ u, core.run (m s) s = .next u ∧ F u := by
  induction hm : m s generalizing s with
  | zero => exact absurd hm (hpos s h).ne'
  | succ n ih =>
    obtain ⟨u, hu, hcases⟩ := hstep s h
    rcases hcases with ⟨hone, hF⟩ | ⟨hmore, hP, hG⟩
    · obtain rfl : n = 0 := by omega
      exact ⟨fun k v hk hlt => absurd hlt (by omega), u, run_succ_of_next hu 0, hF⟩
    · obtain ⟨hrest, v, hv, hF⟩ := ih hP (by omega)
      refine ⟨fun k w hk hlt hw => ?_, v, (run_succ_of_next hu n).trans hv, hF⟩
      obtain ⟨k, rfl⟩ := Nat.exists_eq_succ_of_ne_zero hk.ne'
      rw [Nat.succ_eq_add_one, run_succ_of_next hu] at hw
      rcases Nat.eq_zero_or_pos k with rfl | hk
      · cases hw
        exact hG
      · exact hrest k w hk (by omega) hw

/-- Where words without RST are given, the step takes the first and runs STEP on its fields. -/
theorem step_of_given {p : StimWord → Prop} (h : s.Inv) (hlen : 0 < s.inputs.length)
    (hp : ∀ w ∈ s.inputs, w.getLsbD 15 = false ∧ p w) :
    ∃ w, p w ∧ step s = .next (opStep (decodeStim w) s.takeWord) ∧
      (opStep (decodeStim w) s.takeWord).inputs = s.inputs.tail := by
  obtain ⟨w, ws, hi⟩ := List.exists_cons_of_length_pos hlen
  obtain ⟨hrst, hw⟩ := hp w (hi ▸ List.mem_cons_self)
  refine ⟨w, hw, ?_, opStep_inputs (s := s.takeWord) _ h.noFault⟩
  rw [step_of_legal h.legal, State.nextWord_of_cons hi, exec_decodeTop, rstBit, hrst]
  exact runOp_of_noFault (s := s.takeWord) h.noFault _

theorem State.Inv.takeWord (h : s.Inv) : s.takeWord.Inv := h.mid.takeWord.inv h.consumed

/-! ## A stalled transaction (R62, R86) -/

/-- A transaction with this accumulator and report stands in progress, and HOLD is given until its watchdog ends. -/
structure State.Stalled (a : Vector Byte 6) (r : Report) (s : State) : Prop where
  inv : s.Inv
  active : s.serPhase = .active
  words : s.wdCnt ≤ s.inputs.length
  held : ∀ w ∈ s.inputs, w.getLsbD 15 = false ∧ w.getLsbD 14 = true
  acc : s.acc = a
  rpt : s.rpt = r

/-- What the watchdog's expiry leaves of the transaction. -/
structure State.Abandoned (r : Report) (s : State) : Prop where
  code : 0x14 ∈ s.trace
  gap : s.serPhase = .gap
  byteIdx : s.byteIdx = 0
  edgeIdx : s.edgeIdx = 0
  acc : s.acc = Vector.replicate 6 0x00
  rpt : s.rpt = r
  noSample : s.sampleComplete = false

variable {a : Vector Byte 6} {r : Report}

theorem State.Stalled.wdCnt_pos (h : s.Stalled a r) : 0 < s.wdCnt :=
  h.inv.armedCount (h.inv.activeSerial h.active).2

/-- A step under HOLD takes one from the watchdog's count, or abandons the transaction at its end. -/
theorem State.Stalled.step (h : s.Stalled a r) : ∃ u, step s = .next u ∧
    ((s.wdCnt = 1 ∧ u.Abandoned r) ∨
      (s.wdCnt = u.wdCnt + 1 ∧ u.Stalled a r ∧ u.serPhase = .active ∧ u.acc = a)) := by
  have hpos := h.wdCnt_pos
  have hlen := h.words
  obtain ⟨w, hhold, hstep, hinputs⟩ := step_of_given h.inv (hpos.trans_le hlen) h.held
  have hinv := opStep_inv h.inv.mid.takeWord (decodeStim w)
  refine ⟨_, hstep, ?_⟩
  rcases Nat.lt_or_eq_of_le (Nat.succ_le_of_lt hpos) with hw | hw
  · have hengine := opStep_stalled_counting h.inv.takeWord h.active (st := decodeStim w) hhold hw
    simp only [State.engine, State.transaction, Prod.mk.injEq, Transaction.mk.injEq, State.takeWord_wdCnt] at hengine
    obtain ⟨⟨-, -, hphase, -, -, -, -, hcnt⟩, hacc, hrpt, -⟩ := hengine
    have hwords := (congrArg List.length hinputs).trans List.length_tail
    exact .inr ⟨by omega, ⟨hinv, hphase.trans h.active, by omega, fun v hv => h.held v (List.mem_of_mem_tail
      (hinputs ▸ hv)), hacc.trans h.acc, hrpt.trans h.rpt⟩, hphase.trans h.active, hacc.trans h.acc⟩
  · obtain ⟨hcode, hengine⟩ := opStep_stalled_expiry h.inv.takeWord h.active (st := decodeStim w) hhold hw.symm
    simp only [State.engine, State.transaction, Prod.mk.injEq, Transaction.mk.injEq] at hengine
    obtain ⟨⟨-, -, hphase, hbyte, hedge, -⟩, hacc, hrpt, -⟩ := hengine
    exact .inl ⟨hw.symm, hcode, hphase, hbyte, hedge, hacc, hrpt.trans h.rpt, hinv.consumed⟩

/-- Settles O55: the watchdog counts one in each step and expires in its last one. -/
theorem stalledTransactionIsAbandoned : Obligations.StalledTransactionIsAbandoned := by
  unfold Obligations.StalledTransactionIsAbandoned
  intro s h hp hlen hwords
  obtain ⟨hstands, u, hu, hend⟩ := run_countdown (m := State.wdCnt) (fun _ => State.Stalled.wdCnt_pos)
    (fun _ => State.Stalled.step) (⟨h, hp, hlen, hwords, rfl, rfl⟩ : s.Stalled s.acc s.rpt)
  refine ⟨fun k v hk hv => ?_, u, hu, hend.code, hend.gap, hend.byteIdx, hend.edgeIdx, hend.acc, hend.rpt,
    hend.noSample⟩
  rcases Nat.eq_zero_or_pos k with rfl | hpos
  · cases hv
    exact ⟨hp, rfl⟩
  · exact hstands k v hpos hk hv

/-! ## The resend at the idle rate (R61, 45_idle_transmit_host.md R106, R113) -/

/-- The steps until the idle count elapses: the ticks left, T_IDLE steps each, the first of them after `it_cnt`. -/
def State.idleLeft (s : State) : Nat := (s.idleRate.toNat - 1 - s.idleCnt) * s.params.tIdle + s.itCnt

/-- Between two sends of one report in a decided mode: a ready endpoint and no request are given until the count
elapses, and no step on the way changes the report. -/
structure State.Waiting (r : Report) (s : State) : Prop where
  inv : s.Inv
  decided : s.mode ≠ .undecided
  rate : s.idleRate ≠ 0
  notElapsed : s.idleElapsed = false
  notPending : s.sendPending = false
  words : s.idleLeft ≤ s.inputs.length
  ready : ∀ w ∈ s.inputs, w.getLsbD 15 = false ∧ w.getLsbD 16 = false ∧ w.getLsbD 13 = true
  rpt : s.rpt = r
  unchanged : ∀ k u, k ≤ s.idleLeft → core.run k s = .next u → u.rpt = r

theorem State.Waiting.idleLeft_pos (h : s.Waiting r) : 0 < s.idleLeft :=
  Nat.lt_of_lt_of_le h.inv.range.itCntPos (Nat.le_add_left _ _)

/-- This step's idle tick makes the count elapse. -/
def State.ElapseDue (s : State) : Prop := s.itCnt = 1 ∧ s.idleRate.toNat ≤ s.idleCnt + 1

/-- The count elapses in the last of the steps left. -/
theorem State.Waiting.elapseDue_iff (h : s.Waiting r) : s.ElapseDue ↔ s.idleLeft = 1 := by
  have hlt := h.inv.idleBelowRate h.notElapsed h.rate
  have hpos := h.inv.range.itCntPos
  have hT := h.inv.legal.tIdle
  rw [State.ElapseDue, State.idleLeft]
  rcases Nat.eq_zero_or_pos (s.idleRate.toNat - 1 - s.idleCnt) with h0 | h0
  · rw [h0, Nat.zero_mul]
    omega
  · have := Nat.mul_pos h0 hT.1
    omega

/-- S1 and S2 without a request take one from the steps left, but for a tick that elapses. -/
theorem idleSubSteps_idleLeft (h : s.Inv) {st : Stim} (hv : st.reqv = false) (hr : s.idleRate ≠ 0)
    (he : s.idleElapsed = false) (hdue : ¬ s.ElapseDue) : s.idleLeft = (idleSubSteps st s).idleLeft + 1 := by
  have hlt := h.idleBelowRate he hr
  have hbyte := s.idleRate.isLt
  have hpos := h.range.itCntPos
  have hquiet : subRequest (s.beginStep st) = s.beginStep st := subRequest_of_noRequest hv
  rcases idleSubSteps_cases h st with ⟨hcnt, e⟩ | ⟨hcnt, e⟩
  · rw [e, hquiet]
    show _ = (s.idleRate.toNat - 1 - s.idleCnt) * s.params.tIdle + (s.itCnt - 1) + 1
    rw [State.idleLeft]
    omega
  · have hcount : ¬ s.idleRate.toNat ≤ s.idleCnt + 1 := fun hle => hdue ⟨hcnt, hle⟩
    have hticks : s.idleRate.toNat - 1 - s.idleCnt = s.idleRate.toNat - 1 - (s.idleCnt + 1) + 1 := by omega
    rw [e, hquiet, opIdleTick_of_counting (s := s.beginStep st) h.noFault hr he (by show s.idleCnt < 255; omega)]
    show _ = (s.idleRate.toNat - 1 - (s.idleCnt + 1)) * s.params.tIdle + s.params.tIdle + 1
    rw [State.idleLeft, hcnt, hticks, Nat.succ_mul]

/-- A step that sends nothing leaves the idle count as S2 left it. -/
theorem opStep_idle_of_silent {st : Stim} (hf : s.fault = none) (hn : (opStep st s).fault = none)
    (htx : (opStep st s).tx = none) : (opStep st s).idle = (idleSubSteps st s).idle := by
  obtain ⟨-, u, e, -, hu, hidle, -⟩ := opStep_eq_subTransmit hf hn
  rw [e] at htx ⊢
  have hdue : ¬ u.TransmitDue := fun hdue => by
    obtain ⟨r, hr⟩ := (subTransmit_sends_iff hu).mpr hdue
    rw [htx] at hr
    cases hr
  rw [subTransmit_of_not_due hdue, hidle]

/-- The steps left are a matter of the idle count alone. -/
theorem State.idleLeft_congr (e : t.idle = s.idle) : t.idleLeft = s.idleLeft :=
  congrArg (fun i : IdleCount => (i.rate.toNat - 1 - i.count) * i.period + i.tick) e

/-- Only a request writes the idle rate. -/
theorem opStep_idleRate {st : Stim} (hv : st.reqv = false) (s : State) : (opStep st s).idleRate = s.idleRate := by
  have hlate : ∀ u, (afterRequest u).idleRate = u.idleRate :=
    runSubSteps_keeps (f := State.idleRate)
      (xs := [.idleTimer, .watchdog, .serialTimer, .pollTimer, .settle, .arbitrate, .build, .transmit])
      (by simp [SubStep.owner, Owner.hide, Owner.blank, State.hideCodes])
  rw [opStep, hlate, subRequest_of_noRequest (s := s.beginStep st) hv, State.beginStep_idleRate]

/-- A step without a request, before which no cause waits, sends at a ready endpoint exactly when its tick elapses. -/
theorem opStep_sends_iff_elapseDue (h : s.Inv) (hr : s.idleRate ≠ 0) (he : s.idleElapsed = false)
    (hp : s.sendPending = false) {st : Stim} (hv : st.reqv = false) (hready : st.epRdy = true)
    (hmode : (opStep st s).mode ≠ .undecided) (hrpt : (opStep st s).rpt = s.rpt) :
    (∃ q, (opStep st s).tx = some q) ↔ s.ElapseDue := by
  obtain ⟨hiff, -⟩ := transmitExactlyWhenDue s (opStep st s) st (runOp_of_noFault h.noFault _)
    (opStep_inv h.mid st).noFault
  rw [hiff, opStep_idleRate hv, State.ElapseDue]
  simp [hv, hready, hmode, hrpt, hp, he, show ¬ s.idleRate = 0#8 from hr]

/-- A step of the wait takes one from the steps left, or sends the report in the last of them. -/
theorem State.Waiting.step (h : s.Waiting r) : ∃ u, step s = .next u ∧
    ((s.idleLeft = 1 ∧ u.tx = some r) ∨ (s.idleLeft = u.idleLeft + 1 ∧ u.Waiting r ∧ u.tx = none)) := by
  have hlen := h.words
  have hpos := h.idleLeft_pos
  obtain ⟨w, ⟨hv, hready⟩, hstep, hinputs⟩ := step_of_given h.inv (hpos.trans_le hlen) h.ready
  have hmode := run_mode_of_decided 1 h.decided (hpos.trans_le hlen) (fun v hv => (h.ready v hv).1)
    (run_succ_of_next hstep 0)
  have hrpt := h.unchanged 1 _ hpos (run_succ_of_next hstep 0)
  have hinv := opStep_inv h.inv.mid.takeWord (decodeStim w)
  have hdecided := hmode.symm ▸ h.decided
  have hsends := opStep_sends_iff_elapseDue h.inv.takeWord h.rate h.notElapsed h.notPending (st := decodeStim w) hv
    hready hdecided (hrpt.trans h.rpt.symm)
  obtain ⟨-, hsent, hclear, -⟩ := transmitExactlyWhenDue s.takeWord _ (decodeStim w)
    (runOp_of_noFault h.inv.takeWord.noFault _) hinv.noFault
  refine ⟨_, hstep, ?_⟩
  by_cases hdue : s.ElapseDue
  · obtain ⟨q, hq⟩ := hsends.mpr hdue
    obtain ⟨rfl, -⟩ := hsent q hq
    exact .inl ⟨h.elapseDue_iff.mp hdue, hrpt ▸ hq⟩
  · have htx := Option.eq_none_iff_forall_ne_some.mpr fun q hq => hdue (hsends.mp ⟨q, hq⟩)
    have hidle := opStep_idle_of_silent h.inv.takeWord.noFault hinv.noFault htx
    have hleft : s.idleLeft = (opStep (decodeStim w) s.takeWord).idleLeft + 1 :=
      (idleSubSteps_idleLeft h.inv.takeWord (st := decodeStim w) hv h.rate h.notElapsed hdue).trans
        (congrArg (· + 1) (State.idleLeft_congr hidle).symm)
    have hwords := (congrArg List.length hinputs).trans List.length_tail
    have hrate := opStep_idleRate (st := decodeStim w) hv s.takeWord
    obtain ⟨hpending, helapsed⟩ := hclear hdecided hready
    exact .inr ⟨hleft, ⟨hinv, hdecided, hrate.symm ▸ h.rate, helapsed, hpending, by omega,
      fun v hv => h.ready v (List.mem_of_mem_tail (hinputs ▸ hv)), hrpt, fun k v hk hrun =>
        h.unchanged (k + 1) v (by omega) ((run_succ_of_next hstep k).trans hrun)⟩, htx⟩

/-- Settles O40: the idle count elapses once its N ticks of T_IDLE steps have run, and no other cause arises. -/
theorem resendAfterRateTicks : Obligations.ResendAfterRateTicks := by
  unfold Obligations.ResendAfterRateTicks
  intro s h hm hr hcnt he hit hp hlen hwords hrpt
  have hbyte := restart_below_rate s.idleRate hr
  have hleft : s.idleLeft = s.idleRate.toNat * s.params.tIdle := by
    rw [State.idleLeft, hcnt, hit, Nat.sub_zero, ← Nat.succ_mul, Nat.succ_eq_add_one, Nat.sub_add_cancel hbyte]
  rw [← hleft] at hlen hrpt ⊢
  exact run_countdown (m := State.idleLeft) (fun _ => State.Waiting.idleLeft_pos) (fun _ => State.Waiting.step)
    (⟨h, hm, hr, he, hp, hlen.ge, hwords, rfl, hrpt⟩ : s.Waiting s.rpt)

end Sys2Proof.Machine
end

section
/-! Proofs of the statements of 41_mux_engine.md: the operations of the poll tick, the sample latch, the decode of the
raw table into the report, and the engine at rest in serial mode. -/

namespace Sys2Proof.Machine

variable {s : State}

/-! ## The decode of the raw table (R75, 44_report_formatter.md R97 to R101) -/

/-- The active-high bit of a line at phase 2 (R97). -/
theorem State.p2_getLsbD (s : State) (c : Fin 2) {k : Nat} (hk : k < 8) : (s.p2 c).getLsbD k = s.pressed c 2 k := by
  simp [State.p2, State.pressed, hk]

/-- The active-high bit of a line at phase 5 (R97). -/
theorem State.p5_getLsbD (s : State) (c : Fin 2) {k : Nat} (hk : k < 8) : (s.p5 c).getLsbD k = s.pressed c 5 k := by
  simp [State.p5, State.pressed, hk]

/-- The X axis by the lines Left and Right (R98). -/
theorem State.xAxis_eq (s : State) (c : Fin 2) :
    s.xAxis c = directionByte (s.pressed c 3 2) (s.pressed c 3 3) := by
  rw [State.xAxis, axis_eq_directionByte, s.p3_getLsbD c (by decide), s.p3_getLsbD c (by decide)]

/-- The Y axis by the lines Up and Down (R98). -/
theorem State.yAxis_eq (s : State) (c : Fin 2) :
    s.yAxis c = directionByte (s.pressed c 3 0) (s.pressed c 3 1) := by
  rw [State.yAxis, axis_eq_directionByte, s.p3_getLsbD c (by decide), s.p3_getLsbD c (by decide)]

/-- The low four bits are the phase 5 lines of a six-button pad (R99, R100). -/
theorem State.btn_getLsbD_low (s : State) (c : Fin 2) {k : Nat} (hk : k < 4) :
    (s.btn c).getLsbD k = (s.six c && s.pressed c 5 k) := by
  rw [← s.p5_getLsbD c (by omega), State.btn]
  interval_cases k <;> cases s.six c <;> simp

/-- Bits 4 and 5 are lines B and C at phase 3 (R100). -/
theorem State.btn_getLsbD_mid (s : State) (c : Fin 2) {k : Nat} (hk : 4 ≤ k ∧ k < 6) :
    (s.btn c).getLsbD k = s.pressed c 3 k := by
  obtain ⟨hlo, hhi⟩ := hk
  rw [← s.p3_getLsbD c (by omega), State.btn]
  interval_cases k <;> cases s.six c <;> simp

/-- Bits 6 and 7 are lines Start and A at phase 2, two places up (R100). -/
theorem State.btn_getLsbD_high (s : State) (c : Fin 2) {k : Nat} (hk : 4 ≤ k ∧ k < 6) :
    (s.btn c).getLsbD (k + 2) = s.pressed c 2 k := by
  obtain ⟨hlo, hhi⟩ := hk
  rw [← s.p2_getLsbD c (by omega), State.btn]
  interval_cases k <;> cases s.six c <;> simp

/-- Every bit of a button byte is its button of the table of R100. -/
theorem State.btn_getLsbD (s : State) (c : Fin 2) (k : Fin 8) : (s.btn c).getLsbD k = s.buttonDown c k :=
  match k with
  | 0 | 1 | 2 | 3 => s.btn_getLsbD_low c (by decide)
  | 4 | 5 => s.btn_getLsbD_mid c (by decide)
  | 6 => s.btn_getLsbD_high c (k := 4) (by decide)
  | 7 => s.btn_getLsbD_high c (k := 5) (by decide)

theorem opBuildMux_eq (s : State) : opBuildMux s =
    { s with
      rpt := s.muxReport, sampleComplete := false, sendPending := s.sendPending || decide (s.muxReport ≠ s.rpt)
      trace := s.trace ++ [0x31] } := by
  rw [opBuildMux, State.build_eq]; rfl

/-- Settles O28: the axes by their direction pairs, the button bits by three groups of lines, and the rest by what
a build writes. -/
theorem buildMuxDecodesTheRawTable : Obligations.BuildMuxDecodesTheRawTable := by
  unfold Obligations.BuildMuxDecodesTheRawTable
  intro s hf
  refine ⟨opBuildMux s, runOp_of_noFault hf _, ?_⟩
  rw [opBuildMux_eq]
  exact ⟨rfl, s.xAxis_eq 0, s.yAxis_eq 0, s.xAxis_eq 1, s.yAxis_eq 1, s.btn_getLsbD 0, s.btn_getLsbD 1⟩

/-! ## The engine in serial mode (R76) -/

/-- What the multiplexed engine holds while it does not run, and whether it emitted the code. -/
def State.muxHeld (c : Byte) (s : State) : Vector (Vector Byte 8) 2 × Bool × Nat × Nat × Prop :=
  (s.raw, s.sel, s.ptCnt, s.ptPeriod, c ∈ s.trace)

theorem Owner.hide_muxHeld {e : Owner} {c : Byte} (hc : codeOwner c = some .mux) (he : e ≠ .mux) (s : State) :
    (e.hide s).muxHeld c = s.muxHeld c := by
  have hcode : (c ∈ (e.hide s).trace) = (c ∈ s.trace) :=
    Owner.mem_trace_hide (by rw [hc]; exact fun h => he (Option.some.inj h).symm) s
  simp only [State.muxHeld, hcode]
  cases e with
  | mux => exact absurd rfl he
  | host | idle | serial | arbiter | report => rfl

/-- In serial mode S5 and S6 do nothing: the poll timer is off and no latch is due. -/
theorem muxSubSteps_of_serial {early : Bool} {k : Nat} (h : s.Mid early k) (hm : s.mode = .serial) :
    subSettle (subPollTimer s) = s := by
  have hneed : s.needSample = false := eq_false_of_ne_true fun hn => h.latchMux hn hm
  rw [subPollTimer_of_off (h.ptEnIff.mpr hm), subSettle, oneShot_of_disarmed hneed]

/-- A step in serial mode keeps what the multiplexed engine holds and emits none of its codes. -/
theorem opStep_muxHeld {c : Byte} (hc : codeOwner c = some .mux) (h : s.Inv) (hm : s.mode = .serial) (stim : Stim) :
    (opStep stim s).muxHeld c = (s.beginStep stim).muxHeld c := by
  have hheld := fun (x : SubStep) (hx : x.owner ≠ .mux) u => x.run_keeps (Owner.hide_muxHeld hc hx) u
  have hmode := fun (x : SubStep) (hx : x.owner ≠ .arbiter) u =>
    congrArg Prod.fst (x.run_keeps (f := State.decision) (Owner.hide_decision hx) u)
  have hone := subRequest_mid (h.mid.beginStep stim)
  have hfour := subSerialTimer_mid (subWatchdog_mid (subIdleTimer_mid hone))
  have hserial : (subSerialTimer (subWatchdog (idleSubSteps stim s))).mode = .serial :=
    (hmode .serialTimer (by decide) _).trans <| (hmode .watchdog (by decide) _).trans <|
      (hmode .idleTimer (by decide) _).trans <| (hmode .request (by decide) _).trans hm
  rw [opStep, (afterRequest_of_mid hone).1, muxSubSteps_of_serial hfour hserial]
  calc (subTransmit (subBuild (subArbitrate (subSerialTimer (subWatchdog (idleSubSteps stim s)))))).muxHeld c
    _ = (subSerialTimer (subWatchdog (idleSubSteps stim s))).muxHeld c :=
        (hheld .transmit (by decide) _).trans <| (hheld .build (by decide) _).trans <|
          hheld .arbitrate (by decide) _
    _ = (idleSubSteps stim s).muxHeld c := (hheld .serialTimer (by decide) _).trans (hheld .watchdog (by decide) _)
    _ = (s.beginStep stim).muxHeld c := (hheld .idleTimer (by decide) _).trans (hheld .request (by decide) _)

/-- Serial mode, once selected, is kept by a step (43_mode_arbiter.md R96). -/
theorem opStep_mode_of_serial (hf : s.fault = none) (hm : s.mode = .serial) (stim : Stim) :
    (opStep stim s).mode = .serial := by
  rcases opStep_decision_cases stim hf with ⟨hkept, -⟩ | ⟨hundecided, -⟩
  · exact hkept.trans hm
  · rw [hm] at hundecided
    cases hundecided

/-- In serial mode the engine stands at phase 8, its timer, its latch and its outputs off (R34 item 2, R76). -/
theorem State.Inv.mux_off (h : s.Inv) (hm : s.mode = .serial) :
    s.ptEn = false ∧ s.needSample = false ∧ s.selOe = false ∧ s.phase = 8 :=
  ⟨h.ptEnIff.mpr hm, eq_false_of_ne_true fun hn => h.latchMux hn hm, h.selOeIff.mpr hm, h.serialPhase hm⟩

/-- Settles O45: serial mode stays, so the invariant has the engine off after the step, and S5 and S6 do nothing
in it. -/
theorem muxEngineInertInSerialMode : Obligations.MuxEngineInertInSerialMode := by
  unfold Obligations.MuxEngineInertInSerialMode
  intro s t st h hm e
  rw [exec_step] at e
  obtain ⟨hf, rfl⟩ := runOp_eq_next.mp e
  have hmode := opStep_mode_of_serial hf hm st
  obtain ⟨hpt, hneed, hoe, hphase⟩ := (opStep_inv h.mid st).mux_off hmode
  have hz : ∀ level, tri (opStep st s).selOe level = .z := fun level => by rw [hoe]; rfl
  have hcode : ∀ c, codeOwner c = some .mux → c ∉ (opStep st s).trace := fun c hc hin =>
    List.not_mem_nil ((congrArg (·.2.2.2.2) (opStep_muxHeld hc h hm st)).mp hin)
  have hheld := opStep_muxHeld (c := 0x01) rfl h hm st
  simp only [State.muxHeld, Prod.mk.injEq] at hheld
  obtain ⟨hraw, hsel, hcnt, hperiod, -⟩ := hheld
  exact ⟨hmode, hpt, hneed, hoe, hz _, hz _, hphase, hraw, hsel, hcnt, hperiod,
    hcode 0x01 rfl, hcode 0x02 rfl, hcode 0x03 rfl, hcode 0x04 rfl⟩

/-! ## The poll tick (R69 to R71) -/

theorem opPollAdvance_eq (hf : s.fault = none) (hp : s.phase ≤ 6) : opPollAdvance s =
    { s with
      sel := !s.sel, phase := s.phase + 1, needSample := true, stCnt := s.params.tSettle
      trace := s.trace ++ [0x01] } := by
  rw [opPollAdvance, State.putPhase_of_le (by omega), State.andThen_of_noFault (by exact hf)]
  rfl

/-- Settles O15: a phase of at most 6 has its successor in range. -/
theorem pollAdvanceTogglesSelect : Obligations.PollAdvanceTogglesSelect := by
  unfold Obligations.PollAdvanceTogglesSelect
  exact fun s hf hp => (runOp_of_noFault hf _).trans (congrArg _ (opPollAdvance_eq hf hp))

/-- Settles O16: POLL_FINISH is its record of writes. -/
theorem pollFinishCompletesThePacket : Obligations.PollFinishCompletesThePacket := by
  unfold Obligations.PollFinishCompletesThePacket
  exact fun s hf => runOp_of_noFault hf opPollFinish

/-- Settles O17: POLL_RESTART is its record of writes. -/
theorem pollRestartBeginsAPacket : Obligations.PollRestartBeginsAPacket := by
  unfold Obligations.PollRestartBeginsAPacket
  exact fun s hf => runOp_of_noFault hf opPollRestart

/-! ## The sample latch (R72, R73) -/

theorem opSampleLatch_of_phase {p : Fin 8} (hp : s.phase = p) : opSampleLatch s =
    { s.latchRaw p s.pins.lines0 s.pins.lines1 with needSample := false, trace := s.trace ++ [0x04] } := by
  rw [opSampleLatch, hp, rawIndex_of_lt p.isLt]
  rfl

/-- Settles O18: by what the raw table reads after a latch, at the phase and elsewhere. -/
theorem sampleLatchStoresBothPorts : Obligations.SampleLatchStoresBothPorts := by
  unfold Obligations.SampleLatchStoresBothPorts
  intro s p hf hp
  have hread := s.readRaw_latchRaw p (l0 := s.pins.lines0) (l1 := s.pins.lines1)
  refine ⟨opSampleLatch s, runOp_of_noFault hf _, ?_⟩
  rw [opSampleLatch_of_phase hp]
  exact ⟨rfl, (hread p 0).trans (if_pos rfl), (hread p 1).trans (if_pos rfl),
    fun c q hq => (hread q c).trans (if_neg hq)⟩

end Sys2Proof.Machine
end

section
/-! Proofs of the statements of 42_serial_engine.md: the gap tick, the start of a transaction, its last edge, its
completion, and the watchdog's expiry. -/

namespace Sys2Proof.Machine

variable {s : State}

/-! ## The serial tick in the gap (R78, R79) -/

theorem opSerGap_eq (hf : s.fault = none) (hpos : 0 < s.gapCnt) (hle : s.gapCnt ≤ s.params.txnGap) :
    opSerGap s = { s with gapCnt := s.gapCnt - 1, trace := s.trace ++ [0x10] } := by
  rw [opSerGap, State.countDown_of_pos _ hpos, State.putGapCnt_of_le (by omega), State.andThen_of_noFault (by exact hf)]
  rfl

/-- Settles O19: a count in its range has its predecessor in range. -/
theorem serialGapCountsDown : Obligations.SerialGapCountsDown := by
  unfold Obligations.SerialGapCountsDown
  exact fun s hf hpos hle => (runOp_of_noFault hf _).trans (congrArg _ (opSerGap_eq hf hpos hle))

/-- Settles O20: SER_START is its record of writes. -/
theorem serialStartAssertsAttention : Obligations.SerialStartAssertsAttention := by
  unfold Obligations.SerialStartAssertsAttention
  exact fun s hf => runOp_of_noFault hf opSerStart

/-! ## The end of a transaction (R84 to R86) -/

theorem opSerComplete_eq (s : State) : opSerComplete s =
    { s with
      byteIdx := 0, edgeIdx := 0, clk := true, att := true, cmd := true, serPhase := .gap
      gapCnt := s.params.txnGap, wdArmed := false, wdCnt := 0, sampleComplete := true
      trace := s.trace ++ [0x13] } := rfl

/-- The last edge of byte 8 leaves the state of a completion: with `E_BYTE` at least 18 it stands past the active
window, so it shifts no response bit, and the completion writes every other field that its actions wrote. -/
theorem opSerEdge_of_last (hE : 18 ≤ s.params.eByte) (hb : s.byteIdx = 8) (he : s.edgeIdx + 1 = s.params.eByte) :
    opSerEdge s = opSerComplete (s.emit 0x12) := by
  have hacc : edgeAcc 8 s.edgeIdx s = s.acc := edgeAcc_of_not s (by omega)
  rw [opSerEdge, if_pos (by omega), edge_actions, hb, edgeAdvance_of_last (by exact he), hacc]
  rfl

/-- Settles O22: the edge's event code, then the completion. -/
theorem serialLastEdgeCompletes : Obligations.SerialLastEdgeCompletes := by
  unfold Obligations.SerialLastEdgeCompletes
  intro s hf hE hb he
  refine (runOp_of_noFault hf opSerEdge).trans (congrArg _ ?_)
  rw [opSerEdge_of_last hE hb he, opSerComplete_eq]
  simp only [State.emit, List.append_assoc, List.singleton_append]

/-- Settles O23: SER_COMPLETE is its record of writes. -/
theorem serialCompleteMarksTheSet : Obligations.SerialCompleteMarksTheSet := by
  unfold Obligations.SerialCompleteMarksTheSet
  exact fun s hf => (runOp_of_noFault hf _).trans (congrArg _ (opSerComplete_eq s))

theorem opWdogExpire_eq (s : State) : opWdogExpire s =
    { s with
      acc := Vector.replicate 6 0x00, byteIdx := 0, edgeIdx := 0, clk := true, att := true, cmd := true
      serPhase := .gap, gapCnt := s.params.txnGap, wdArmed := false, wdCnt := 0
      trace := s.trace ++ [0x14] } := by
  simp only [opWdogExpire, State.clearAcc, State.enterGap, State.idleLines, State.disarmWatchdog, State.emit]

/-- Settles O24: WDOG_EXPIRE is its record of writes. -/
theorem watchdogExpiryAbandonsTheTransaction : Obligations.WatchdogExpiryAbandonsTheTransaction := by
  unfold Obligations.WatchdogExpiryAbandonsTheTransaction
  exact fun s hf => (runOp_of_noFault hf _).trans (congrArg _ (opWdogExpire_eq s))

end Sys2Proof.Machine
end

section
/-! Proofs of the statements of 43_mode_arbiter.md: the decision table of ARBITRATE, and the run from reset to the
decision. -/

namespace Sys2Proof.Machine

variable {s : State}

/-! ## The decision table (R90 to R95) -/

theorem and_eq_right_iff_getLsbD {n : Nat} (x m : BitVec n) :
    x &&& m = m ↔ ∀ k : Fin n, m.getLsbD k = true → x.getLsbD k = true := by
  simp only [BitVec.eq_of_getLsbD_eq_iff, BitVec.getLsbD_and, Bool.and_eq_right_iff_imp]
  exact ⟨fun h k => h k k.isLt, fun h i hi => h ⟨i, hi⟩⟩

/-- The chord by the buttons of port 1 (R91, 44_report_formatter.md R100). -/
theorem State.chord_iff (s : State) : s.chord = true ↔
    ∀ k : Fin 8, s.params.chordMask.getLsbD k = true → s.buttonDown 1 k = true := by
  simp only [State.chord, beq_iff_eq, and_eq_right_iff_getLsbD, State.btn_getLsbD]

theorem State.marker_iff (s : State) : s.marker = true ↔ s.readRaw 0 7 = s.params.serialMarker := beq_iff_eq

theorem opArbitrate_of_mux (h : s.chord = true ∨ s.marker = false) :
    opArbitrate s = { s with mode := .mux, trace := s.trace ++ [0x30] } := by
  rw [opArbitrate, if_neg (by rcases h with h | h <;> simp [h])]
  rfl

theorem opArbitrate_of_serial (hc : s.chord = false) (hm : s.marker = true) :
    opArbitrate s = selectSerial (s.emit 0x30) := by
  rw [opArbitrate, if_pos (by simp [hc, hm])]

/-- Settles O26: the predicates of ARBITRATE are those of the decision table, and each outcome is its record of
writes. -/
theorem arbitrateFollowsTheDecisionTable : Obligations.ArbitrateFollowsTheDecisionTable := by
  unfold Obligations.ArbitrateFollowsTheDecisionTable
  intro s hf
  simp only [← State.chord_iff, ne_eq, ← State.marker_iff, Bool.not_eq_true]
  refine ⟨fun h => ?_, fun hc hm => ?_⟩
  · exact (runOp_of_noFault hf opArbitrate).trans (congrArg _ (opArbitrate_of_mux h))
  · refine (runOp_of_noFault hf opArbitrate).trans (congrArg _ ?_)
    rw [opArbitrate_of_serial hc hm, selectSerial_eq]
    rfl

/-! ## The steps to the decision (R96, 70_reset_and_hazards.md R131, R139) -/

/-- The steps until POLL_FINISH ends the packet: the poll ticks still to come after the next one, a poll period each,
and the count to the next one. Phase 8, before the packet, has eight of them. -/
def State.decisionLeft (s : State) : Nat := (8 - (s.phase + 1) % 9) * s.params.tPoll + s.ptCnt

/-- The packet is at its last poll tick exactly at the count 1. -/
theorem State.decisionLeft_eq_one_iff (hp : s.params.Legal) (hr : s.InRange) :
    s.decisionLeft = 1 ↔ s.phase = 7 ∧ s.ptCnt = 1 := by
  have hphase := hr.phase
  have hcnt := hr.ptCntPos
  have hzero : (8 - (s.phase + 1) % 9) * s.params.tPoll = 0 ↔ s.phase = 7 := by
    rw [Nat.mul_eq_zero, or_iff_left (Nat.pos_iff_ne_zero.mp hp.tPoll.1)]
    omega
  rw [State.decisionLeft, ← hzero]
  omega

/-- The steps left to the end of the packet, with what S7 tests. -/
def State.arbitration (s : State) : Nat × Mode × Bool := (s.decisionLeft, s.mode, s.sampleComplete)

theorem State.arbitration_eq_iff {t : State} : t.arbitration = s.arbitration ↔
    t.decisionLeft = s.decisionLeft ∧ t.mode = s.mode ∧ t.sampleComplete = s.sampleComplete := by
  simp only [State.arbitration, Prod.mk.injEq]

theorem idleSubSteps_arbitration (st : Stim) (s : State) : (idleSubSteps st s).arbitration = s.arbitration :=
  (SubStep.idleTimer.run_keeps (f := State.arbitration) (fun _ => rfl) _).trans
    (SubStep.request.run_keeps (f := State.arbitration) (fun _ => rfl) (s.beginStep st))

/-- The latch moves neither the phase nor the poll timer (41_mux_engine.md R72). -/
theorem subSettle_arbitration (s : State) : (subSettle s).arbitration = s.arbitration :=
  oneShot_keeps (f := State.arbitration) (fun _ _ => rfl) (fun s v => by unfold State.putStCnt; split <;> rfl)
    (fun s => by unfold opSampleLatch; split <;> rfl) _ _ _ s

/-- A poll tick before the end of a packet goes to the next of the nine phases, at the period T_POLL (R69, R71). -/
theorem opPollTick_of_not_last (h : s.Mid true 1) (hp : s.phase ≠ 7) :
    (opPollTick s).phase = (s.phase + 1) % 9 ∧ (opPollTick s).ptPeriod = s.params.tPoll ∧
      (opPollTick s).params = s.params ∧ (opPollTick s).mode = s.mode ∧
      (opPollTick s).sampleComplete = s.sampleComplete := by
  have hphase := h.range.phase
  unfold opPollTick
  by_cases hadvance : s.phase ≤ 6
  · rw [if_pos hadvance, opPollAdvance_eq h.noFault hadvance]
    exact ⟨(Nat.mod_eq_of_lt (show s.phase + 1 < 9 by omega)).symm, h.packetPeriod (by omega), rfl, rfl, rfl⟩
  · have h8 : s.phase = 8 := by omega
    rw [if_neg hadvance, if_neg hp, if_pos h8, h8]
    exact ⟨rfl, rfl, rfl, rfl, rfl⟩

/-- Outside serial mode the poll timer runs (10_state.md R34 item 2). -/
theorem State.Mid.ptEn_of_notSerial {early : Bool} {k : Nat} (h : s.Mid early k) (hm : s.mode ≠ .serial) :
    s.ptEn = true :=
  eq_true_of_ne_false fun hoff => hm (h.ptEnIff.mp hoff)

/-- Before the last poll tick of a packet S5 takes one from the steps left and marks no sample set. -/
theorem subPollTimer_of_not_last (h : s.Mid true 1) (hm : s.mode ≠ .serial) (hleft : s.decisionLeft ≠ 1) :
    s.decisionLeft = (subPollTimer s).decisionLeft + 1 ∧ (subPollTimer s).mode = s.mode ∧
      (subPollTimer s).sampleComplete = s.sampleComplete := by
  have hen := h.ptEn_of_notSerial hm
  have hphase := h.range.phase
  have hcnt := h.range.ptCntPos
  by_cases h1 : s.ptCnt = 1
  · have hp : s.phase ≠ 7 := fun h7 => hleft ((State.decisionLeft_eq_one_iff h.legal h.range).mpr ⟨h7, h1⟩)
    obtain ⟨hphase', hperiod, hparams, hmode, hcomplete⟩ := opPollTick_of_not_last h hp
    rw [subPollTimer_of_tick h.legal h.range h.noFault hen h1]
    refine ⟨?_, hmode, hcomplete⟩
    have hticks : 8 - (s.phase + 1) % 9 = 8 - ((s.phase + 1) % 9 + 1) % 9 + 1 := by omega
    simp only [State.decisionLeft, hphase', hperiod, hparams, h1]
    rw [hticks, Nat.succ_mul]
  · rw [subPollTimer_of_counting h.range hen h1]
    refine ⟨?_, rfl, rfl⟩
    simp only [State.decisionLeft]
    omega

/-- At the last poll tick of a packet S5 runs POLL_FINISH, which marks the sample set (R70). -/
theorem subPollTimer_of_last (h : s.Mid true 1) (hm : s.mode ≠ .serial) (hleft : s.decisionLeft = 1) :
    (subPollTimer s).mode = s.mode ∧ (subPollTimer s).sampleComplete = true ∧ 0x02 ∈ (subPollTimer s).trace := by
  have hen := h.ptEn_of_notSerial hm
  obtain ⟨h7, h1⟩ := (State.decisionLeft_eq_one_iff h.legal h.range).mp hleft
  rw [subPollTimer_of_tick h.legal h.range h.noFault hen h1, opPollTick, if_neg (by omega), if_pos h7]
  exact ⟨rfl, rfl, List.mem_append_right _ List.mem_cons_self⟩

/-! ### The whole step -/

/-- What S5 finds in a step of the undecided mode. -/
theorem idleSubSteps_of_undecided (h : s.Inv) (hm : s.mode = .undecided) (st : Stim) :
    (idleSubSteps st s).decisionLeft = s.decisionLeft ∧ (idleSubSteps st s).mode = .undecided ∧
      (idleSubSteps st s).sampleComplete = false := by
  obtain ⟨hleft, hmode, hcomplete⟩ := State.arbitration_eq_iff.mp (idleSubSteps_arbitration st s)
  exact ⟨hleft, hmode.trans hm, hcomplete.trans h.consumed⟩

/-- In the undecided mode S3 and S4 do nothing. -/
theorem opStep_of_undecided (h : s.Inv) (hm : s.mode = .undecided) (st : Stim) : opStep st s =
    subTransmit (subBuild (subArbitrate (subSettle (subPollTimer (idleSubSteps st s))))) := by
  obtain ⟨-, hmode, -⟩ := idleSubSteps_of_undecided h hm st
  have hserial : (idleSubSteps st s).mode ≠ .serial := by simp [hmode]
  rw [opStep, (afterRequest_of_mid (subRequest_mid (h.mid.beginStep st))).1]
  exact congrArg (fun u => subTransmit (subBuild (subArbitrate (subSettle (subPollTimer u)))))
    (serialSubSteps_of_notSerial (idleSubSteps_mid h st) hserial)

/-- Before its last poll tick the packet goes on, and S7 to S9 do nothing. -/
theorem opStep_of_not_last (h : s.Inv) (hm : s.mode = .undecided) (hleft : s.decisionLeft ≠ 1) (st : Stim) :
    (opStep st s).mode = .undecided ∧ s.decisionLeft = (opStep st s).decisionLeft + 1 := by
  obtain ⟨hleft', hmode, hcomplete⟩ := idleSubSteps_of_undecided h hm st
  obtain ⟨hleft5, hmode5, hcomplete5⟩ :=
    subPollTimer_of_not_last (idleSubSteps_mid h st) (by simp [hmode]) (hleft' ▸ hleft)
  obtain ⟨hleft6, hmode6, hcomplete6⟩ := State.arbitration_eq_iff.mp
    (subSettle_arbitration (subPollTimer (idleSubSteps st s)))
  have hundecided := hmode6.trans (hmode5.trans hmode)
  have hnone := hcomplete6.trans (hcomplete5.trans hcomplete)
  rw [opStep_of_undecided h hm st, subArbitrate_of_not_due (by simp [hundecided]) (by simp [hnone]),
    subBuild_of_not_due (.inl hnone), subTransmit_of_not_due fun hdue => hdue.1 hundecided]
  exact ⟨hundecided, by omega⟩

/-- At the last poll tick of the packet S5 completes the sample set, and S7 decides on it in the same step (R96). -/
theorem opStep_of_last (h : s.Inv) (hm : s.mode = .undecided) (hleft : s.decisionLeft = 1) (st : Stim) :
    (opStep st s).mode ≠ .undecided ∧ 0x02 ∈ (opStep st s).trace ∧ 0x30 ∈ (opStep st s).trace := by
  obtain ⟨hleft', hmode, -⟩ := idleSubSteps_of_undecided h hm st
  obtain ⟨hmode5, hcomplete5, hfinish5⟩ :=
    subPollTimer_of_last (idleSubSteps_mid h st) (by simp [hmode]) (hleft'.trans hleft)
  obtain ⟨-, hmode6, hcomplete6⟩ := State.arbitration_eq_iff.mp
    (subSettle_arbitration (subPollTimer (idleSubSteps st s)))
  have hfinish6 := (subSettle_accounted _).trace 0x02 hfinish5
  rw [opStep_of_undecided h hm st,
    subArbitrate_of_complete ⟨hmode6.trans (hmode5.trans hmode), hcomplete6.trans hcomplete5⟩]
  generalize subSettle (subPollTimer (idleSubSteps st s)) = u at hfinish6 ⊢
  obtain ⟨hdecided, harbitrate⟩ := opArbitrate_decides u
  have hlate := fun c hc => (subTransmit_accounted _).trace c ((subBuild_accounted (opArbitrate u)).trace c hc)
  have hmode9 : (subTransmit (subBuild (opArbitrate u))).mode = (opArbitrate u).mode :=
    (SubStep.transmit.run_keeps (f := State.mode) (fun _ => rfl) _).trans
      (SubStep.build.run_keeps (f := State.mode) (fun _ => rfl) _)
  exact ⟨hmode9 ▸ hdecided, hlate 0x02 ((opArbitrate_accounted u).trace _ hfinish6), hlate 0x30 harbitrate⟩

/-- No report is sent in a step that ends in the undecided mode (45_idle_transmit_host.md R107). -/
theorem opStep_tx_of_undecided (h : s.Inv) {st : Stim} (hm : (opStep st s).mode = .undecided) :
    (opStep st s).tx = none := by
  obtain ⟨-, u, e, -, htx, -⟩ := opStep_eq_subTransmit h.noFault (opStep_inv h.mid st).noFault
  rw [e] at hm ⊢
  have hu : u.mode = .undecided := (SubStep.transmit.run_keeps (f := State.mode) (fun _ => rfl) u).symm.trans hm
  rw [subTransmit_of_not_due fun hdue => hdue.1 hu, htx]

/-! ### The run from reset -/

/-- The mode is undecided, and words without RST are given until the packet ends. -/
structure State.Deciding (s : State) : Prop where
  inv : s.Inv
  undecided : s.mode = .undecided
  words : s.decisionLeft ≤ s.inputs.length
  noReset : ∀ w ∈ s.inputs, w.getLsbD 15 = false

theorem State.Deciding.decisionLeft_pos (h : s.Deciding) : 0 < s.decisionLeft :=
  Nat.add_pos_right _ h.inv.range.ptCntPos

/-- A step takes one from the steps left and sends nothing, or decides at their end. -/
theorem State.Deciding.step (h : s.Deciding) : ∃ u, step s = .next u ∧
    ((s.decisionLeft = 1 ∧ u.mode ≠ .undecided ∧ 0x02 ∈ u.trace ∧ 0x30 ∈ u.trace) ∨
      (s.decisionLeft = u.decisionLeft + 1 ∧ u.Deciding ∧ u.mode = .undecided ∧ u.tx = none)) := by
  obtain ⟨w, -, hstep, hinputs⟩ := step_of_given (p := fun _ => True) h.inv (h.decisionLeft_pos.trans_le h.words)
    fun w hw => ⟨h.noReset w hw, trivial⟩
  refine ⟨_, hstep, ?_⟩
  by_cases hlast : s.decisionLeft = 1
  · exact .inl ⟨hlast, opStep_of_last h.inv.takeWord h.undecided hlast _⟩
  · obtain ⟨hmode, hleft⟩ := opStep_of_not_last h.inv.takeWord h.undecided hlast (decodeStim w)
    have hleft : s.decisionLeft = _ + 1 := hleft
    have hlen := (congrArg List.length hinputs).trans List.length_tail
    have hwords := h.words
    exact .inr ⟨hleft, ⟨opStep_inv h.inv.takeWord.mid _, hmode, by omega, fun v hv =>
      h.noReset v (List.mem_of_mem_tail (hinputs ▸ hv))⟩, hmode, opStep_tx_of_undecided h.inv.takeWord hmode⟩

/-- Right after reset the packet to decide on is nine poll periods away: the restart and eight ticks (R131). -/
theorem resetWith_decisionLeft (p : Params) (ws : List StimWord) :
    State.decisionLeft { State.resetWith p with inputs := ws } = 9 * p.tPoll := by
  simp only [State.decisionLeft, State.resetWith, Nat.reduceAdd, Nat.reduceMod, Nat.sub_zero]
  omega

/-- Settles O56: each step from reset takes one from the steps left, and the step at their end decides. -/
theorem modeIsDecidedAtNinePollPeriods : Obligations.ModeIsDecidedAtNinePollPeriods := by
  unfold Obligations.ModeIsDecidedAtNinePollPeriods
  intro p ws hp hlen hwords
  have hleft := resetWith_decisionLeft p ws
  have hstart : State.Deciding { State.resetWith p with inputs := ws } :=
    ⟨(resetWith_inv hp).withInputs ws, rfl, (hleft.trans hlen.symm).le, hwords⟩
  obtain ⟨hsilent, hdecided⟩ := run_countdown (m := State.decisionLeft) (fun _ => State.Deciding.decisionLeft_pos)
    (fun _ => State.Deciding.step) hstart
  rw [hleft] at hsilent hdecided
  refine ⟨fun k u hk hu => ?_, hdecided⟩
  rcases Nat.eq_zero_or_pos k with rfl | hpos
  · cases hu
    exact ⟨rfl, rfl⟩
  · exact hsilent k u hpos hk hu

end Sys2Proof.Machine
end

section
/-! Proofs of the statements of 44_report_formatter.md: the serial build through `SERIAL_PERM`. -/

namespace Sys2Proof.Machine

/-! ## The serial build (R102 to R104) -/

/-- Byte i of the report copies its slot of the accumulator, inverted where the record says so (R102). -/
theorem State.serReport_getElem? (s : State) (i : Fin 6) :
    s.serReport.toList[i.val]? = some (serialSource s.params.serialPerm s.acc i) :=
  match i with
  | 0 | 1 | 2 | 3 | 4 | 5 => rfl

/-- The default permutation swaps the outer pairs of slots and inverts the two button bytes (R102). -/
theorem State.serReport_of_default {s : State} (hq : s.params.serialPerm = Params.default.serialPerm) :
    s.serReport.toList = [s.acc[4], s.acc[5], s.acc[2], s.acc[3], ~~~ s.acc[0], ~~~ s.acc[1]] := by
  rw [State.serReport, hq]
  rfl

theorem opBuildSer_eq (s : State) : opBuildSer s =
    { s with
      rpt := s.serReport, sampleComplete := false, sendPending := s.sendPending || decide (s.serReport ≠ s.rpt)
      trace := s.trace ++ [0x32] } := by
  rw [opBuildSer, State.build_eq]; rfl

/-- Settles O29: each report byte by its slot, the default permutation by its six entries, and the rest by what a build
writes. -/
theorem buildSerPermutesTheAccumulator : Obligations.BuildSerPermutesTheAccumulator := by
  unfold Obligations.BuildSerPermutesTheAccumulator
  intro s hf
  refine ⟨opBuildSer s, runOp_of_noFault hf _, ?_⟩
  rw [opBuildSer_eq]
  exact ⟨rfl, s.serReport_getElem?, State.serReport_of_default⟩

end Sys2Proof.Machine
end

section
/-! Proofs of the statements of 45_idle_transmit_host.md: the idle tick, the host requests, the silence at rate 0, and
what a request reaches. -/

namespace Sys2Proof.Machine

variable {s : State}

/-! ## The idle tick and the requests alone (R106, R110, R111) -/

/-- Settles O32: the tick counts, or leaves its code only. -/
theorem idleTickCountsToTheRate : Obligations.IdleTickCountsToTheRate := by
  unfold Obligations.IdleTickCountsToTheRate
  exact fun s hf => ⟨fun hr he hc => (runOp_of_noFault hf _).trans (congrArg _ (opIdleTick_of_counting hf hr he hc)),
    fun h => (runOp_of_noFault hf _).trans (congrArg _ (opIdleTick_of_not_counting h))⟩

/-- Settles O35: SET_IDLE is its record of writes. -/
theorem setIdleStoresTheRate : Obligations.SetIdleStoresTheRate := by
  unfold Obligations.SetIdleStoresTheRate
  exact fun s rate hf => ⟨opSetIdle rate s, runOp_of_noFault hf _, rfl, rfl, rfl⟩

/-- Settles O36: REQ_UNHANDLED writes its answer, which carries no byte, and its code. -/
theorem unhandledRequestOnlyAnswers : Obligations.UnhandledRequestOnlyAnswers := by
  unfold Obligations.UnhandledRequestOnlyAnswers
  exact fun s _ _ hf => ⟨opReqUnhandled s, runOp_of_noFault hf _, rfl, rfl, rfl⟩

/-! ## Silence at rate 0 (R106, R107, R113) -/

/-- At rate 0 S2 makes no elapse. -/
theorem subIdleTimer_idleElapsed_of_rateZero (h : s.idleRate = 0) : (subIdleTimer s).idleElapsed = s.idleElapsed := by
  have hput : ∀ u v, (State.putItCnt u v).idleElapsed = u.idleElapsed := fun u v => by
    unfold State.putItCnt; split <;> rfl
  unfold subIdleTimer
  rcases periodicTimer_cases true s.itCnt State.putItCnt opIdleTick (fun t => t.params.tIdle) s with
    ⟨-, e⟩ | ⟨-, -, e⟩ | ⟨-, -, e⟩ <;> rw [e]
  · rw [opIdleTick_of_not_counting (.inl h)]
    exact State.andThen_keeps (f := State.idleElapsed) rfl fun t ht => (hput t _).trans ht
  · exact State.countDown_keeps (f := State.idleElapsed) (fun _ _ => rfl) hput s _

/-- Rate 0, no cause to send, and nothing sent in this step. -/
structure State.Silent (s : State) : Prop where
  rate : s.idleRate = 0
  elapsed : s.idleElapsed = false
  pending : s.sendPending = false
  tx : s.tx = none

theorem State.Silent.congr {t : State} (h : s.Silent) (hidle : t.idle = s.idle)
    (hpending : t.sendPending = s.sendPending) (htx : t.tx = s.tx) : t.Silent :=
  ⟨(congrArg IdleCount.rate hidle).trans h.rate, (congrArg IdleCount.elapsed hidle).trans h.elapsed,
    hpending.trans h.pending, htx.trans h.tx⟩

/-- S1 without SET_IDLE and S2 make no cause at rate 0. -/
theorem idleSubSteps_silent {st : Stim} (hset : ¬ SetsIdle st) (hrate : s.idleRate = 0) (hel : s.idleElapsed = false)
    (hp : s.sendPending = false) : (idleSubSteps st s).Silent := by
  have hone := (subRequest_idle (s.beginStep st)).trans (if_neg hset)
  have hrate' : (subRequest (s.beginStep st)).idleRate = 0 := (congrArg IdleCount.rate hone).trans hrate
  have hheld := idleSubSteps_held st s
  simp only [State.held, Prod.mk.injEq] at hheld
  obtain ⟨-, hpending, htx⟩ := hheld
  exact ⟨(SubStep.idleTimer.run_keeps (f := State.idleRate) (fun _ => rfl) _).trans hrate',
    (subIdleTimer_idleElapsed_of_rateZero hrate').trans ((congrArg IdleCount.elapsed hone).trans hel),
    hpending.trans hp, htx⟩

/-- S9 sends nothing without a cause. -/
theorem State.Silent.andThen_subTransmit_eq (h : s.Silent) : s.andThen subTransmit = s := by
  have hdue : ¬ s.TransmitDue := by
    rintro ⟨-, -, hpending | helapsed⟩
    · exact Bool.eq_false_iff.mp h.pending hpending
    · exact Bool.eq_false_iff.mp h.elapsed helapsed
  rcases s.andThen_cases subTransmit with ⟨-, e⟩ | ⟨-, -, e⟩
  · exact e.trans (subTransmit_of_not_due hdue)
  · exact e

theorem State.Silent.engines (h : s.Silent) : (runSubSteps SubStep.engines s).Silent := by
  have hidle : (runSubSteps SubStep.engines s).idle = s.idle := runSubSteps_keeps (by
    simp [SubStep.engines, SubStep.owner, State.idle, Owner.hide, Owner.blank, State.hideCodes]) s
  have hheld := congrArg Prod.snd (runSubSteps_engines_held s)
  exact h.congr hidle (congrArg Prod.fst hheld) (congrArg Prod.snd hheld)

/-- S8 makes a cause only where it changes the report (44_report_formatter.md R103). -/
theorem State.Silent.build (h : s.Silent) (hrpt : (subBuild s).rpt = s.rpt) : (subBuild s).Silent := by
  have hpending := (subBuild_pending_iff s).trans (or_iff_left (not_not_intro hrpt))
  exact h.congr (SubStep.build.run_keeps (f := State.idle) (fun _ => rfl) s) (Bool.eq_iff_iff.mpr hpending)
    (SubStep.build.run_keeps (f := State.tx) (fun _ => rfl) s)

/-- The step from a silent S2 that keeps the report ends silent, with a fault on the way or without. -/
theorem opStep_silent {st : Stim} (hf : s.fault = none) (h : (idleSubSteps st s).Silent)
    (hrpt : (opStep st s).rpt = s.rpt) : (opStep st s).Silent := by
  have hsplit : opStep st s =
      ((runSubSteps SubStep.engines (idleSubSteps st s)).andThen subBuild).andThen subTransmit := by
    rw [idleSubSteps, ← State.andThen_of_noFault ((subRequest_fault (s.beginStep st)).trans hf) subIdleTimer]
    rfl
  have hkept : (runSubSteps SubStep.engines (idleSubSteps st s)).rpt = s.rpt :=
    congrArg Prod.fst ((runSubSteps_engines_held _).trans (idleSubSteps_held st s))
  have hsend : ∀ u : State, (u.andThen subTransmit).rpt = u.rpt := fun u =>
    State.andThen_keeps (f := State.rpt) rfl fun t ht =>
      (SubStep.transmit.run_keeps (f := State.rpt) (fun _ => rfl) t).trans ht
  have hbuilt : ((runSubSteps SubStep.engines (idleSubSteps st s)).andThen subBuild).Silent := by
    rw [hsplit, hsend, ← hkept] at hrpt
    rcases State.andThen_cases (runSubSteps SubStep.engines (idleSubSteps st s)) subBuild with
      ⟨-, e⟩ | ⟨-, -, e⟩ <;> rw [e] at hrpt ⊢
    · exact h.engines.build hrpt
    · exact h.engines
  rw [hsplit, hbuilt.andThen_subTransmit_eq]
  exact hbuilt

/-- Settles O39: S1 and S2 make no cause at rate 0, S8 makes none without a change, and S9 sends nothing without one. -/
theorem zeroRateNeverResends : Obligations.ZeroRateNeverResends := by
  unfold Obligations.ZeroRateNeverResends
  intro s t st e hrate hel hp hset hrpt
  rw [exec_step] at e
  obtain ⟨hf, rfl⟩ := runOp_eq_next.mp e
  have hquiet := idleSubSteps_silent (st := st) (fun h => hset h.1 h.2) hrate hel hp
  obtain ⟨hrate', hel', hp', htx⟩ := opStep_silent hf hquiet hrpt
  exact ⟨htx, hrate', hel', hp'⟩

/-! ## What a request reaches (R124) -/

/-- The state with all that a request can reach blanked: the request itself, the idle count, the sending of reports,
the answer and the trace. -/
def State.withoutHost (s : State) : State :=
  { s with
    pins := withRequestFields { s.pins with reqv := false } 0 0 0
    idleRate := 0, idleCnt := 0, idleElapsed := false, itCnt := 0, sendPending := false
    tx := none, resp := .none, trace := [] }

/-- States that agree on the rest differ in the blanked elements only. -/
theorem State.eq_of_withoutHost_eq {t t' : State} (h : t'.withoutHost = t.withoutHost) : t' =
    { t with
      idleRate := t'.idleRate, idleCnt := t'.idleCnt, idleElapsed := t'.idleElapsed, itCnt := t'.itCnt
      sendPending := t'.sendPending, pins := t'.pins, tx := t'.tx, resp := t'.resp, trace := t'.trace } :=
  congrArg (fun u : State =>
    { u with
      idleRate := t'.idleRate, idleCnt := t'.idleCnt, idleElapsed := t'.idleElapsed, itCnt := t'.itCnt
      sendPending := t'.sendPending, pins := t'.pins, tx := t'.tx, resp := t'.resp, trace := t'.trace }) h

/-- What `g` leaves in the rest of the state does not depend on what a request can reach. -/
def SeesNoHost (g : State → State) : Prop := ∀ s, (g s.withoutHost).withoutHost = (g s).withoutHost

section SeesNoHost
variable {f g : State → State} {put : State → Nat → State} {handler : State → State}

theorem SeesNoHost.comp (hg : SeesNoHost g) (hf : SeesNoHost f) : SeesNoHost fun s => g (f s) := fun s =>
  calc (g (f s.withoutHost)).withoutHost
    _ = (g (f s.withoutHost).withoutHost).withoutHost := (hg _).symm
    _ = (g (f s)).withoutHost := by rw [hf s, hg]

theorem withoutHost_ite {c : Prop} [Decidable c] {u v u' v' : State} (hu : u'.withoutHost = u.withoutHost)
    (hv : v'.withoutHost = v.withoutHost) :
    (if c then u' else v').withoutHost = (if c then u else v).withoutHost := by
  split
  · exact hu
  · exact hv

/-- A fault is no element that a request can reach. -/
theorem SeesNoHost.andThen (hg : SeesNoHost g) (hf : SeesNoHost f) : SeesNoHost fun s => (g s).andThen f := by
  intro s
  have hfault : (g s.withoutHost).fault = (g s).fault := by
    show (g s.withoutHost).withoutHost.fault = (g s).withoutHost.fault
    rw [hg]
  show ((g s.withoutHost).andThen f).withoutHost = ((g s).andThen f).withoutHost
  cases h : (g s).fault with
  | none =>
    rw [State.andThen_of_noFault h, State.andThen_of_noFault (hfault.trans h)]
    exact hf.comp hg s
  | some r =>
    rw [State.andThen_of_fault h, State.andThen_of_fault (hfault.trans h)]
    exact hg s

theorem SeesNoHost.countDown (hput : ∀ v, SeesNoHost (put · v)) (cnt : Nat) :
    SeesNoHost fun s => s.countDown put cnt := by
  cases cnt with
  | zero => exact fun _ => rfl
  | succ n => exact hput n

theorem SeesNoHost.periodicTimer {period : State → Nat} (hput : ∀ v, SeesNoHost (put · v))
    (hh : SeesNoHost handler) (hper : ∀ s, period s.withoutHost = period s) (en : Bool) (cnt : Nat) :
    SeesNoHost (periodicTimer en cnt put handler period) := by
  have hreload : SeesNoHost fun t => put t (period t) := fun t => by
    show (put t.withoutHost (period t.withoutHost)).withoutHost = (put t (period t)).withoutHost
    rw [hper]
    exact hput _ t
  exact fun s => withoutHost_ite (withoutHost_ite (hh.andThen hreload s) (SeesNoHost.countDown hput cnt s)) rfl

theorem SeesNoHost.oneShot (hput : ∀ v, SeesNoHost (put · v)) (hh : SeesNoHost handler) (armed : Bool)
    (cnt last : Nat) : SeesNoHost (oneShot armed cnt last put handler) :=
  fun s => withoutHost_ite (withoutHost_ite (hh s) (SeesNoHost.countDown hput cnt s)) rfl

end SeesNoHost

/-! ### S3 to S8 -/

theorem putPtCnt_seesNoHost (v : Nat) : SeesNoHost (State.putPtCnt · v) := fun _ => withoutHost_ite rfl rfl
theorem putStCnt_seesNoHost (v : Nat) : SeesNoHost (State.putStCnt · v) := fun _ => withoutHost_ite rfl rfl
theorem putGapCnt_seesNoHost (v : Nat) : SeesNoHost (State.putGapCnt · v) := fun _ => withoutHost_ite rfl rfl
theorem putByteIdx_seesNoHost (v : Nat) : SeesNoHost (State.putByteIdx · v) := fun _ => withoutHost_ite rfl rfl
theorem putEdgeIdx_seesNoHost (v : Nat) : SeesNoHost (State.putEdgeIdx · v) := fun _ => withoutHost_ite rfl rfl
theorem putScCnt_seesNoHost (v : Nat) : SeesNoHost (State.putScCnt · v) := fun _ => withoutHost_ite rfl rfl
theorem putWdCnt_seesNoHost (v : Nat) : SeesNoHost (State.putWdCnt · v) := fun _ => withoutHost_ite rfl rfl

theorem subWatchdog_seesNoHost : SeesNoHost subWatchdog := fun s =>
  SeesNoHost.oneShot putWdCnt_seesNoHost (fun _ => rfl) s.wdArmed s.wdCnt 1 s

theorem opSerGap_seesNoHost : SeesNoHost opSerGap := fun s =>
  SeesNoHost.andThen (SeesNoHost.countDown putGapCnt_seesNoHost s.gapCnt) (fun _ => rfl) s

theorem edgeAdvance_seesNoHost (b e : Nat) : SeesNoHost (edgeAdvance b e) := fun s =>
  withoutHost_ite (withoutHost_ite rfl ((putByteIdx_seesNoHost (b + 1)).andThen (putEdgeIdx_seesNoHost 0) s))
    (putEdgeIdx_seesNoHost (e + 1) s)

theorem edge_actions_seesNoHost (b e : Nat) : SeesNoHost fun s =>
    edgeAttention b e (edgeDataOut b e (edgeShift b e (edgeClock e (s.emit 0x12)))) := by
  intro s
  simp only [edge_actions]
  rfl

theorem opSerEdge_seesNoHost : SeesNoHost opSerEdge := fun s =>
  withoutHost_ite ((edgeAdvance_seesNoHost _ _).comp (edge_actions_seesNoHost s.byteIdx s.edgeIdx) s) rfl

theorem opSerTick_seesNoHost : SeesNoHost opSerTick := by
  intro s
  have hphase : s.withoutHost.serPhase = s.serPhase := rfl
  rw [opSerTick, opSerTick, hphase]
  cases s.serPhase with
  | gap => exact withoutHost_ite (opSerGap_seesNoHost s) rfl
  | active => exact opSerEdge_seesNoHost s

theorem subSerialTimer_seesNoHost : SeesNoHost subSerialTimer := fun s =>
  SeesNoHost.periodicTimer putScCnt_seesNoHost opSerTick_seesNoHost (fun _ => rfl)
    (s.serEn && !s.pins.hold) s.scCnt s

theorem opPollAdvance_seesNoHost : SeesNoHost opPollAdvance :=
  SeesNoHost.andThen (fun _ => withoutHost_ite rfl rfl) fun _ => rfl

theorem opPollTick_seesNoHost : SeesNoHost opPollTick := fun s =>
  withoutHost_ite (opPollAdvance_seesNoHost s) (withoutHost_ite rfl (withoutHost_ite rfl rfl))

theorem subPollTimer_seesNoHost : SeesNoHost subPollTimer := fun s =>
  SeesNoHost.periodicTimer putPtCnt_seesNoHost opPollTick_seesNoHost (fun _ => rfl) s.ptEn s.ptCnt s

theorem opSampleLatch_seesNoHost : SeesNoHost opSampleLatch := by
  intro s
  have hphase : s.withoutHost.phase = s.phase := rfl
  rw [opSampleLatch, opSampleLatch, hphase]
  cases rawIndex s.phase <;> rfl

theorem subSettle_seesNoHost : SeesNoHost subSettle := fun s =>
  SeesNoHost.oneShot putStCnt_seesNoHost opSampleLatch_seesNoHost s.needSample s.stCnt 0 s

theorem subArbitrate_seesNoHost : SeesNoHost subArbitrate := by
  intro s
  have hmode : s.withoutHost.mode = s.mode := rfl
  rw [subArbitrate, subArbitrate, hmode]
  cases s.mode with
  | undecided => exact withoutHost_ite (withoutHost_ite rfl rfl) rfl
  | mux | serial | three => rfl

/-- A build reads the pads alone; what it writes beside the report is the flag of a change. -/
theorem subBuild_seesNoHost : SeesNoHost subBuild := by
  intro s
  have hmode : s.withoutHost.mode = s.mode := rfl
  rw [subBuild, subBuild, hmode]
  refine withoutHost_ite ?_ rfl
  cases s.mode with
  | mux => simp only [opBuildMux_eq]; rfl
  | serial => simp only [opBuildSer_eq]; rfl
  | undecided | three => rfl

/-- S3 to S8. -/
def padSubSteps (s : State) : State :=
  subBuild (subArbitrate (subSettle (subPollTimer (subSerialTimer (subWatchdog s)))))

theorem padSubSteps_seesNoHost : SeesNoHost padSubSteps :=
  subBuild_seesNoHost.comp <| subArbitrate_seesNoHost.comp <| subSettle_seesNoHost.comp <|
    subPollTimer_seesNoHost.comp <| subSerialTimer_seesNoHost.comp subWatchdog_seesNoHost

/-! ### The whole step -/

theorem State.withoutHost_of_noFault (h : s.fault = none) : { s.withoutHost with fault := none } = s.withoutHost := by
  rw [← h]; rfl

/-- S1 and S2 write nothing but what a request can reach; under the invariant they do not fault. -/
theorem idleSubSteps_withoutHost (h : s.Inv) (st : Stim) :
    (idleSubSteps st s).withoutHost = (s.beginStep st).withoutHost := by
  rw [← State.withoutHost_of_noFault (idleSubSteps_mid h st).noFault,
    ← State.withoutHost_of_noFault (s := s.beginStep st) h.noFault]
  exact (SubStep.idleTimer.run_keeps (f := fun u => { u.withoutHost with fault := none }) (fun _ => rfl) _).trans
    (SubStep.request.run_keeps (f := fun u => { u.withoutHost with fault := none }) (fun _ => rfl) _)

/-- S9 writes nothing else either. -/
theorem subTransmit_withoutHost (s : State) : (subTransmit s).withoutHost = s.withoutHost := by
  by_cases hdue : s.TransmitDue
  · simp [subTransmit_of_due hdue, opTransmit, State.withoutHost]
  · rw [subTransmit_of_not_due hdue]

/-- What a step leaves beside the idle state and the sending of reports comes from S3 to S8, which see no request. -/
theorem opStep_withoutHost (h : s.Inv) (st : Stim) :
    (opStep st s).withoutHost = (padSubSteps (s.beginStep st).withoutHost).withoutHost :=
  calc (opStep st s).withoutHost
    _ = (subTransmit (padSubSteps (idleSubSteps st s))).withoutHost :=
        congrArg _ (afterRequest_of_mid (subRequest_mid (h.mid.beginStep st))).1
    _ = (padSubSteps (idleSubSteps st s)).withoutHost := subTransmit_withoutHost _
    _ = (padSubSteps (idleSubSteps st s).withoutHost).withoutHost := (padSubSteps_seesNoHost _).symm
    _ = (padSubSteps (s.beginStep st).withoutHost).withoutHost := by rw [idleSubSteps_withoutHost h]

/-- Settles O44: the two steps begin alike but for the request, and S3 to S8 keep them so. -/
theorem requestsReachOnlyTheIdleState : Obligations.RequestsReachOnlyTheIdleState := by
  unfold Obligations.RequestsReachOnlyTheIdleState
  intro s t t' st reqv rqt rq wval h e e'
  rw [exec_step] at e e'
  obtain ⟨-, rfl⟩ := runOp_eq_next.mp e
  obtain ⟨-, rfl⟩ := runOp_eq_next.mp e'
  apply State.eq_of_withoutHost_eq
  rw [opStep_withoutHost h, opStep_withoutHost h]
  rfl

end Sys2Proof.Machine
end
